-- ==== Sys2Proof/Word.lean ====
section
/-! DEFINITION. The word types of the UZN-610: what the manual treats as bits (00_scope.md, Conventions). -/
namespace Sys2Proof

/-- One byte of a record, block or host-memory location. -/
abbrev Byte := BitVec 8

/-- A frame number: 32 bits, assigned by the host, wrapping (R77). -/
abbrev Frame := BitVec 32

/-- A free-running 16-bit ring index (R118, R142). -/
abbrev RingIndex := BitVec 16

/-- A 64-bit host address. -/
abbrev Address := BitVec 64

/-- The 32-bit value of a register of the window (R187). -/
abbrev Register := BitVec 32

/-- A 64-byte block: a work record (R190) or the setup block (R189). -/
abbrev Block64 := Vector Byte 64

/-- Station ids 0 … 31 (R1). -/
abbrev StationId := Fin 32

/-- Work rings 0 … 7; ring 0 is the control ring (R118). -/
abbrev WorkRingId := Fin 8

/-- Result rings 0 … 3 (R142). -/
abbrev ResultRingId := Fin 4

/-- Task slots 0 … 7 (R127). -/
abbrev SlotId := Fin 8

/-- Staging set ids 0 … 7 (R100). -/
abbrev SetId := Fin 8

end Sys2Proof
end

