-- ==== Sys2Proof/Syntax.lean ====
section
/-! DEFINITION. The commands: one constructor of Instr per row of spec/opcode_table.json.
A command is one step of the table: a task's execution in a slot, a register write, a pin or link event, the end of a
transfer, or an event the device's own blocks take (a take, a result write, a notice emission, the end of a drain). -/
namespace Sys2Proof

/-- A place of the write-back area (R189): a taken index of a work ring or a produced index of a result ring. -/
inductive Place where
  | taken (ring : WorkRingId)
  | produced (ring : ResultRingId)
  deriving DecidableEq, Repr

/-- A read transfer that can run into the completion timeout of R176. -/
inductive ReadId where
  | setup
  | record (slot : SlotId)
  | grid (slot : SlotId)
  deriving DecidableEq, Repr

/-- What the endpoint's configuration space holds of the host link (R195): the three enables, and the address and data
of the message-interrupt capability (R173). -/
structure LinkConfig where
  busMaster : Bool
  memorySpace : Bool
  messageEnable : Bool
  messageAddress : Address
  messageData : BitVec 32
  deriving DecidableEq, Repr

/-- The commands. An execution row carries the slot whose task executes; a register-write row the 32-bit value written;
the end of a transfer what it was of, for a read that ends done the bytes the link returned, and the epoch the transfer was
requested in, which keeps the late end of an abandoned transfer apart from the end of a later one of the same name (R30,
R164, R169, R176; 0, the first epoch, where none is given). -/
inductive Instr where
  | queryDevice (slot : SlotId)
  | createWorkRing (slot : SlotId)
  | deleteWorkRing (slot : SlotId)
  | createResultRing (slot : SlotId)
  | deleteResultRing (slot : SlotId)
  | openStation (slot : SlotId)
  | closeStation (slot : SlotId)
  | readStation (slot : SlotId)
  | measure (slot : SlotId)
  | freeze (slot : SlotId)
  | thaw (slot : SlotId)
  | reseek (slot : SlotId)
  | setActuators (slot : SlotId)
  | ackNotice (slot : SlotId)
  | stageOpen (slot : SlotId)
  | stagePut (slot : SlotId)
  | stageCommit (slot : SlotId)
  | stageDiscard (slot : SlotId)
  | badKind (slot : SlotId)
  | recordUnreadable (slot : SlotId)
  | softReset (value : Register)
  | startUp (value : Register)
  | enableOff (value : Register)
  | quiesce (value : Register)
  | quiesceClear (value : Register)
  | postWork (value : Register)
  | releaseResult (value : Register)
  | badOperation (value : Register)
  | causeClear (value : Register)
  | maskWrite (value : Register)
  /-- A write of `bytes` bytes at `offset` of the 4 KB memory window. -/
  | registerWrite (offset : BitVec 12) (bytes : Nat) (value : Register)
  | powerOnReset
  /-- The pin reset input, a fundamental reset of the link or a hot reset of the link (R195). -/
  | pinReset
  | linkDown
  | completionTimeout (read : ReadId) (epoch : Nat := 0)
  | take
  | recordReadDone (slot : SlotId) (record : Block64) (epoch : Nat := 0)
  | recordReadFault (slot : SlotId) (epoch : Nat := 0)
  | gridReadDone (slot : SlotId) (data : List Byte) (epoch : Nat := 0)
  | gridReadFault (slot : SlotId) (epoch : Nat := 0)
  | snapshotWriteDone (slot : SlotId) (epoch : Nat := 0)
  | snapshotWriteFault (slot : SlotId) (epoch : Nat := 0)
  | resultWrite (slot : SlotId)
  | resultWriteDone (ring : ResultRingId) (index : RingIndex) (epoch : Nat := 0)
  | resultWriteFault (ring : ResultRingId) (index : RingIndex) (epoch : Nat := 0)
  | writebackFault (place : Place) (epoch : Nat := 0)
  | setupReadDone (block : Block64) (epoch : Nat := 0)
  | setupReadFault (epoch : Nat := 0)
  | writebackZeroingDone (epoch : Nat := 0)
  | writebackZeroingFault (epoch : Nat := 0)
  | closeDrainEnd (slot : SlotId)
  | deleteDrainEnd (slot : SlotId)
  | noticeEmission (station : StationId)
  | writebackDone (place : Place) (epoch : Nat := 0)
  | linkUp
  | configurationSpaceWrite (config : LinkConfig)
  deriving DecidableEq, Repr

end Sys2Proof
end

