-- ==== Sys2Proof/Decode.lean ====
section
/-! DEFINITION. Reading a command from a table word. No row of spec/opcode_table.json gives bits ("fixed" is absent and
"fields" is empty in all 56), so no word spells a command. -/
namespace Sys2Proof

/-- The command a word spells by the bits of the opcode table: none, because the table gives no row any bits. -/
def decodeTableWord (_nbits _w : Nat) : Option Instr := none

end Sys2Proof
end

