-- ==== Sys2Proof/Machine/State.lean ====
section
/-! DEFINITION. The state of the UZN-610 as plain data, and the state after reset. -/
namespace Sys2Proof.Machine

/-! ## Regulation: profiles, history, contexts (chapters 1, 3, 5, 6) -/

/-- PACE (R96). -/
inductive Pace where
  | fine | coarse | proportional
  deriving DecidableEq, Repr

/-- ORDER 0 … 5: the preference order of the three actuators (R66). -/
inductive Order where
  | igl | ilg | lig | lgi | gil | gli
  deriving DecidableEq, Repr

/-- GAP_POLICY (R96). -/
inductive GapPolicy where
  | reseek | report
  deriving DecidableEq, Repr

/-- INFLIGHT (R96). -/
inductive Inflight where
  | wait | compensate
  deriving DecidableEq, Repr

/-- A set of the nine notice conditions in the bit positions of R191. -/
abbrev Conditions := BitVec 9

/-- The 34 fields of a profile (R96): 26 named below and the eight WEIGHT_ROW fields. -/
structure Profile where
  innerLo : Nat
  innerHi : Nat
  outerLo : Nat
  outerHi : Nat
  rushLo : Nat
  rushHi : Nat
  pace : Pace
  damp : Nat
  intMin : Nat
  intMax : Nat
  gainMax : Nat
  lvlMin : Nat
  lvlMax : Nat
  order : Order
  quantum : Nat
  extMax : Nat
  colLo : Nat
  colHi : Nat
  rowLo : Nat
  rowHi : Nat
  /-- Row r holds the weight of column c in bits 4c+3 … 4c (R191). -/
  weightRows : Vector (BitVec 32) 8
  clipLimit : Nat
  clipCellsMax : Nat
  gapLimit : Nat
  gapPolicy : GapPolicy
  inflight : Inflight
  noticeMask : Conditions
  deriving DecidableEq, Repr

/-- The profile fields by name (R96). -/
inductive Field where
  | innerLo | innerHi | outerLo | outerHi | rushLo | rushHi | pace | damp | intMin | intMax | gainMax | lvlMin
  | lvlMax | order | quantum | extMax | colLo | colHi | rowLo | rowHi
  | weightRow (row : Fin 8)
  | clipLimit | clipCellsMax | gapLimit | gapPolicy | inflight | noticeMask
  deriving DecidableEq, Repr

/-- A staging item: a known field and its 32-bit value (R96). -/
abbrev Item := Field × BitVec 32

/-- An entry of a decision history (R61, R78); an absent effective frame marks a base entry. -/
structure Entry where
  effective : Option Frame
  i : Nat
  g : Nat
  l : Nat
  product : Nat
  span : Nat
  deriving DecidableEq, Repr

/-- The loop states (R43). -/
inductive LoopState where
  | idle | seeking | settled | pinnedDark | pinnedBright | frozen
  deriving DecidableEq, Repr

/-- What the context of an OPEN or CLOSING station holds (R1). The decision history is `older` followed by `newest`,
oldest first, so that it is never empty (R78). -/
structure Station where
  homeRing : WorkRingId
  noticeRing : ResultRingId
  frameLines : Nat
  applyDelay : Nat
  profile : Profile
  loop : LoopState
  lastFrame : Option Frame
  lastMean : Option Nat
  lastCompensated : Option Nat
  lastClip : Option Nat
  older : List Entry
  newest : Entry
  armed : List SetId
  pendingSet : Conditions
  noticeArmed : Bool
  noticeInFlight : Bool
  measures : BitVec 32
  decisions : BitVec 32
  skipped : BitVec 32
  deriving DecidableEq, Repr

/-- A station context (R1). A FREE context holds no station; every field it shows is the FREE value of R1's table. -/
inductive Context where
  | free
  | opened (station : Station)
  | closing (station : Station)
  deriving DecidableEq, Repr

/-- The station states as records encode them (R1). -/
inductive StationState where
  | free | opened | closing
  deriving DecidableEq, Repr

/-- A staging set (R100). Its items stand in order of first insertion. -/
inductive StagingSet where
  | free
  | opened (owner : WorkRingId) (items : List Item)
  | armed (owner : WorkRingId) (items : List Item) (station : StationId) (frame : Frame)
  deriving DecidableEq, Repr

/-- The states of a staging set as records encode them (R100). -/
inductive SetState where
  | free | opened | armed
  deriving DecidableEq, Repr

/-! ## Rings and tasks (chapters 2, 7, 8) -/

/-- The state of a work ring that is not ABSENT (R118). -/
inductive WorkRingState where
  | active | draining | faulted
  deriving DecidableEq, Repr

/-- The descriptor of a work ring that is not ABSENT (R118). Ring 0 has no weight (R119). -/
structure WorkRing where
  state : WorkRingState
  base : Address
  size : Nat
  resultRing : ResultRingId
  weight : Option Nat
  posted : RingIndex
  taken : RingIndex
  written : RingIndex
  inFlight : Nat
  deriving DecidableEq, Repr

/-- The descriptor of an ACTIVE result ring (R142). -/
structure ResultRing where
  base : Address
  size : Nat
  threshold : Nat
  placed : RingIndex
  produced : RingIndex
  released : RingIndex
  reserved : Nat
  unsignalled : Nat
  deriving DecidableEq, Repr

/-- A grid cell (R23). -/
structure Cell where
  mean : Nat
  clip : Nat
  valid : Bool
  deriving DecidableEq, Repr

/-- The grid status of a slot, with the buffer of a HELD grid in row-major order (R25, R27). -/
inductive GridStatus where
  | none | inFlight
  | held (cells : List Cell)
  | failed
  deriving DecidableEq, Repr

/-- Statuses of a completion, in the order of their codes 0 … 19 (R192). -/
inductive Status where
  | ok | badKind | badField | noStation | stationInUse | stationClosing | wrongRing | noRing | ringExists | ringInUse
  | noSet | notOwner | setLimit | noSpace | armLimit | armConflict | profileInvalid | bufferFault | gridFault
  | recordUnreadable
  deriving DecidableEq, Repr

/-- Outcomes of a MEASURE (R57, R58); `none` is the outcome NONE. -/
inductive MeasureOutcome where
  | none | decided | unchanged | skippedStale | skippedPending | held | empty
  deriving DecidableEq, Repr

/-- The loop state and newest entry that the body of a home-ring completion reports (R58, R94). -/
structure LoopReport where
  loop : LoopState
  newest : Entry
  deriving DecidableEq, Repr

/-- The contents of a completion body (R151 and the table of completion bodies before R192). -/
inductive Body where
  /-- Every body byte 0. -/
  | blank
  /-- MEASURE and the other home-ring commands. -/
  | home (outcome : MeasureOutcome) (veto : Bool) (mean compensated clip : Option Nat) (report : Option LoopReport)
  | openStation (setId : Nat) (loop : LoopState) (relation : Nat) (station : Nat) (i g l : Nat)
  | closeStation (freed : Nat) (measures decisions skipped : BitVec 32)
  | readStation (state : StationState) (loop : LoopState)
  | stage (setId freeBlocks freeIds relation itemCount blocksHeld : Nat) (prior : SetState) (position : Nat)
      (frame : Frame)
  | createWorkRing (ring resultRing size : Nat)
  | deleteWorkRing (ring setsFreed abandoned : Nat)
  | createResultRing (ring size threshold : Nat)
  | deleteResultRing (ring lost : Nat)
  | queryDevice (freeBlocks freeIds freeSlots : Nat)
  | unreadable (index : RingIndex)
  deriving DecidableEq, Repr

/-- A completion as formed (R151). The station byte is 0xFF for NONE. -/
structure Completion where
  status : Status
  tag : BitVec 16
  ring : WorkRingId
  station : Byte
  body : Body
  deriving DecidableEq, Repr

/-- The drain condition of a task in DRAIN_WAIT (R133): the close's drain set as it still stands, or the deleted ring. -/
inductive Drain where
  | close (station : StationId) (recorded : List SlotId)
  | delete (ring : WorkRingId)
  deriving DecidableEq, Repr

/-- The state of an occupied slot and what it holds (table before R127). `queued none` carries the unreadable mark; a
task in WRITING keeps its record, its completion and, for READ_STATION, the captured image. -/
inductive Phase where
  | reading
  | fetching (record : Block64)
  | queued (record : Option Block64)
  | drainWait (record : Block64) (drain : Drain)
  | writing (record : Option Block64) (completion : Completion) (image : Option (List Byte))
  deriving DecidableEq, Repr

/-- A task: one taken work record, from its take until its completion has been written. -/
structure Task where
  ring : WorkRingId
  index : RingIndex
  phase : Phase
  grid : GridStatus
  deriving DecidableEq, Repr

/-! ## Link port (chapter 10) -/

/-- What a transfer is of and which block awaits its end (R176). -/
inductive TransferKind where
  | setupRead
  | zeroing
  | recordRead (slot : SlotId) (ring : WorkRingId) (index : RingIndex)
  | gridRead (slot : SlotId)
  | snapshot (slot : SlotId)
  | completion (slot : SlotId) (ring : ResultRingId) (index : RingIndex)
  | notice (station : StationId) (ring : ResultRingId) (index : RingIndex)
  | writeBack (place : Place)
  deriving DecidableEq, Repr

/-- The bytes a transfer moves. -/
inductive Payload where
  | read (length : Nat)
  | write (data : List Byte)
  deriving DecidableEq, Repr

/-- A transfer in flight. `failing` marks one that can only end failed: issued while nothing is carried, in flight when
the link went down, or timed out (R176, R195). `refused` marks one requested while nothing is carried: the link port can
pass none of its bytes (R176, R195). `epoch` is the epoch it was requested in, by which its end names it (log entry 20). -/
structure Transfer where
  kind : TransferKind
  address : Address
  payload : Payload
  failing : Bool
  refused : Bool
  epoch : Nat
  deriving DecidableEq, Repr

/-- The bytes the device has written to host memory, by address, in rising order of address. An address it has not
written is not listed. -/
abbrev Memory := List Host.Cell

/-- An interrupt message as sent: its address and data (R173). -/
structure Message where
  address : Address
  data : BitVec 32
  deriving DecidableEq, Repr

/-! ## Controller (chapter 9) -/

/-- The controller states (R159). -/
inductive ControllerState where
  | off | starting | running | quiescing | quiesced | halted
  deriving DecidableEq, Repr

/-- The reset cause (R175). -/
inductive ResetCause where
  | powerOn | pin | soft
  deriving DecidableEq, Repr

/-- The halt cause (R175). -/
inductive HaltCause where
  | none | setupInvalid | setupReadFault | writebackFault | resultWriteFault
  deriving DecidableEq, Repr

/-- The reason of a POST rejection (R174). -/
inductive RejectReason where
  | none | noRing | overrun | regress | badOperation
  deriving DecidableEq, Repr

/-- The last POST rejection (R174): operation and ring id as written. -/
structure Rejection where
  operation : BitVec 4
  reason : RejectReason
  ringId : BitVec 4
  deriving DecidableEq, Repr

/-- The last POST rejection NONE: reads as operation 0, reason 0, ring id 0 (R188). -/
def Rejection.nothing : Rejection := ⟨0, .none, 0⟩

/-- The contents of an accepted setup block (R162). -/
structure Setup where
  controlBase : Address
  controlSize : Nat
  resultBase : Address
  resultSize : Nat
  resultThreshold : Nat
  writeBack : Address
  deriving DecidableEq, Repr

/-- The state of the device, its link port and the commands waiting. -/
structure State where
  -- controller
  controller : ControllerState
  quiesceBit : Bool
  setupLo : Register
  setupHi : Register
  resetCause : ResetCause
  haltCause : HaltCause
  rejection : Rejection
  cause : BitVec 8
  mask : BitVec 8
  /-- The accepted setup block, kept until start-up ends (R162). -/
  heldSetup : Option Setup
  /-- The address later write-backs go to (R163). -/
  writeBackAddress : Address
  -- ring manager; an ABSENT ring is none
  workRings : Vector (Option WorkRing) 8
  -- task scheduler; a FREE slot is none
  slots : Vector (Option Task) 8
  pointer : WorkRingId
  runCounter : Nat
  -- station table, staging pool, result writer; an ABSENT result ring is none
  stations : Vector Context 32
  sets : Vector StagingSet 8
  resultRings : Vector (Option ResultRing) 4
  -- link port
  linkIsUp : Bool
  link : LinkConfig
  /-- The transfers in flight that no block has abandoned, in order of issue. -/
  transfers : List Transfer
  hostMemory : Memory
  /-- The interrupt messages sent, oldest first. -/
  messages : List Message
  -- the model's own
  /-- How many failed and abandoned writes have drawn on `Config.linkPassed`. -/
  draws : Nat
  /-- How often the device has abandoned its transfers: raised by every halt and teardown, so that the end of a transfer
  abandoned earlier is no end of one requested since (R30, R164, R169, R176). -/
  epoch : Nat
  /-- The commands waiting, first in, first out. -/
  pending : List Instr
  deriving DecidableEq, Repr

/-- The machine stops with no fault: the manual answers every event with a next state (its own HALTED is a state). -/
inductive Fault where
  deriving DecidableEq, Repr

/-- Why a command has no meaning. -/
inductive Refusal where
  /-- Raised by exec for a command whose meaning is not written; safe, since nothing is claimed of it. No arm raises it. -/
  | notModelled (mnemonic : String)
  deriving DecidableEq, Repr

/-- What a step answers. -/
abbrev Answer := Host.Outcome State Fault Refusal

/-- The configuration space before the host has changed it: everything enabled, message address and data 0
(DESIGN CHOICE, unsafe: log entry 3). -/
def initialLink : LinkConfig := ⟨true, true, true, 0, 0⟩

/-- The state after power-on reset (R2, R25, R100, R118, R124, R127, R142, R171). -/
def State.reset : State where
  controller := .off
  quiesceBit := false
  setupLo := 0
  setupHi := 0
  resetCause := .powerOn
  haltCause := .none
  rejection := .nothing
  cause := 0
  mask := 0
  heldSetup := none
  writeBackAddress := 0
  workRings := Vector.replicate 8 none
  slots := Vector.replicate 8 none
  pointer := 1
  runCounter := 0
  stations := Vector.replicate 32 .free
  sets := Vector.replicate 8 .free
  resultRings := Vector.replicate 4 none
  linkIsUp := true
  link := initialLink
  transfers := []
  hostMemory := []
  messages := []
  draws := 0
  epoch := 0
  pending := []

end Sys2Proof.Machine
end

