-- ==== Sys2Proof/Machine/Allocation.lean ====
section
/-! DEFINITION. Exposure allocation: limits, clamping, quantization, the ordered decomposition and the span (chapter 4).
All of it is on unbounded integers (R76). -/
namespace Sys2Proof.Machine

/-- Replace a value below the range by its lower end and one above it by its upper end (R63). -/
def clampTo (lo hi v : Nat) : Nat := if v < lo then lo else if hi < v then hi else v

/-- The allocation limits of a station (R62). -/
structure Limits where
  intFloor : Nat
  intCap : Nat
  gainMax : Nat
  lvlMin : Nat
  lvlMax : Nat
  deriving DecidableEq, Repr

/-- The limits derived afresh from the profile and the frame lines (R62). -/
def limitsOf (p : Profile) (frameLines : Nat) : Limits :=
  let cap := min p.intMax (frameLines * (1 + p.extMax))
  { intFloor := min p.intMin cap, intCap := cap, gainMax := p.gainMax, lvlMin := p.lvlMin, lvlMax := p.lvlMax }

/-- Quantization of an integration value in its three steps (R64). -/
def quantize (frameLines quantum floor i : Nat) : Nat :=
  let j :=
    if i > frameLines then i / frameLines * frameLines
    else if quantum > 0 ∧ i ≥ quantum then i / quantum * quantum
    else i
  max j floor

/-- Integration is clamped to floor … cap and then quantized (R63, R64). -/
def settleI (p : Profile) (frameLines v : Nat) : Nat :=
  let m := limitsOf p frameLines
  quantize frameLines p.quantum m.intFloor (clampTo m.intFloor m.intCap v)

/-- Gain is clamped to 16 … GAIN_MAX (R63). -/
def settleG (p : Profile) (v : Nat) : Nat := clampTo 16 p.gainMax v

/-- Drive level is clamped to LVL_MIN … LVL_MAX (R63). -/
def settleL (p : Profile) (v : Nat) : Nat := clampTo p.lvlMin p.lvlMax v

/-- The three actuators. -/
inductive Actuator where
  | i | g | l
  deriving DecidableEq, Repr

/-- The preference order p1, p2, p3 that ORDER names (R66). -/
def Order.places : Order → Actuator × Actuator × Actuator
  | .igl => (.i, .g, .l)
  | .ilg => (.i, .l, .g)
  | .lig => (.l, .i, .g)
  | .lgi => (.l, .g, .i)
  | .gil => (.g, .i, .l)
  | .gli => (.g, .l, .i)

/-- The least of an actuator: the lower end of its range (R62). -/
def Actuator.least (p : Profile) (frameLines : Nat) : Actuator → Nat
  | .i => (limitsOf p frameLines).intFloor
  | .g => 16
  | .l => p.lvlMin

/-- A value clamped to its actuator's range, and quantized if it is integration. -/
def Actuator.settle (p : Profile) (frameLines : Nat) : Actuator → Nat → Nat
  | .i, v => settleI p frameLines v
  | .g, v => settleG p v
  | .l, v => settleL p v

/-- The span ceil(I / F) of an integration value (R69). -/
def spanOf (frameLines i : Nat) : Nat := (i + frameLines - 1) / frameLines

/-- Values for the three actuators. -/
structure Settings where
  i : Nat
  g : Nat
  l : Nat
  deriving DecidableEq, Repr

/-- Put the values of the three places back to their actuators. -/
def Order.assign (o : Order) (v1 v2 v3 : Nat) : Settings :=
  match o with
  | .igl => ⟨v1, v2, v3⟩
  | .ilg => ⟨v1, v3, v2⟩
  | .lig => ⟨v2, v3, v1⟩
  | .lgi => ⟨v3, v2, v1⟩
  | .gil => ⟨v2, v1, v3⟩
  | .gli => ⟨v3, v1, v2⟩

/-- The ordered decomposition of a product (R67). -/
def decompose (p : Profile) (frameLines product : Nat) : Settings :=
  let places := p.order.places
  let least := Actuator.least p frameLines
  let v1 := places.1.settle p frameLines (product / (least places.2.1 * least places.2.2))
  let v2 := places.2.1.settle p frameLines (product / (v1 * least places.2.2))
  let v3 := places.2.2.settle p frameLines (product / (v1 * v2))
  p.order.assign v1 v2 v3

/-- Values from the host, treated one actuator at a time (R73, R74). -/
def treat (p : Profile) (frameLines i g l : Nat) : Settings :=
  ⟨settleI p frameLines i, settleG p g, settleL p l⟩

/-- The history entry formed from settings: their product and the span of the integration (R61, R69). -/
def entryOf (frameLines : Nat) (effective : Option Frame) (v : Settings) : Entry :=
  { effective, i := v.i, g := v.g, l := v.l, product := v.i * v.g * v.l, span := spanOf frameLines v.i }

end Sys2Proof.Machine
end

