-- ==== Sys2Proof/Machine/Flags.lean ====
section
/-! DEFINITION. The flag computations: notice conditions of a station (R20), cause bits and the interrupt message
(R172, R173). -/
namespace Sys2Proof.Machine

/-- The nine notice conditions (R191). -/
inductive Condition where
  | settle | seek | pinDark | pinBright | highlight | gap | applied | rejected | grid
  deriving DecidableEq, Repr

/-- The bit of a condition wherever a set of conditions is encoded (R191). -/
def Condition.bit : Condition → Conditions
  | .settle => 0x001#9
  | .seek => 0x002#9
  | .pinDark => 0x004#9
  | .pinBright => 0x008#9
  | .highlight => 0x010#9
  | .gap => 0x020#9
  | .applied => 0x040#9
  | .rejected => 0x080#9
  | .grid => 0x100#9

/-- A condition raise on an OPEN station: it joins the pending set if NOTICE_MASK, as it stands, holds its bit (R20). -/
def Station.raise (k : Condition) (c : Station) : Station :=
  { c with pendingSet := c.pendingSet ||| (k.bit &&& c.profile.noticeMask) }

/-- Raise every condition of a list. -/
def Station.raiseAll (ks : List Condition) (c : Station) : Station :=
  ks.foldl (fun c k => c.raise k) c

/-- The condition that reports entering a loop state, where there is one (R48). -/
def LoopState.condition : LoopState → Option Condition
  | .seeking => some .seek
  | .settled => some .settle
  | .pinnedDark => some .pinDark
  | .pinnedBright => some .pinBright
  | .idle | .frozen => none

/-- The cause bits in the positions of CAUSE and MASK (R187). -/
inductive Cause where
  | result (ring : ResultRingId)
  | ready | quiesced | halted | postReject
  deriving DecidableEq, Repr

/-- The bit of a cause (R187). -/
def Cause.bit : Cause → BitVec 8
  | .result 0 => 0x01#8
  | .result 1 => 0x02#8
  | .result 2 => 0x04#8
  | .result 3 => 0x08#8
  | .ready => 0x10#8
  | .quiesced => 0x20#8
  | .halted => 0x40#8
  | .postReject => 0x80#8

/-- The signalled set (R173). -/
def State.signalled (s : State) : BitVec 8 := s.cause &&& s.mask

/-- The interrupt message can be sent: message interrupts and bus mastering enabled (R195). -/
def State.messageEnabled (s : State) : Bool := s.link.messageEnable && s.link.busMaster

/-- Give CAUSE and MASK new values in one event. The message is sent when the signalled set goes from empty to non-empty
(R173), unless messages cannot be sent, and then it is not kept for later (R195). -/
def State.signal (s : State) (cause mask : BitVec 8) : State :=
  { s with
    cause, mask
    messages :=
      if s.signalled = 0 ∧ cause &&& mask ≠ 0 ∧ s.messageEnabled then
        s.messages ++ [⟨s.link.messageAddress, s.link.messageData⟩]
      else s.messages }

/-- The setting of a cause bit; one already set records nothing further (R172). -/
def State.setCause (s : State) (k : Cause) : State := s.signal (s.cause ||| k.bit) s.mask

/-- A write to CAUSE: each bit written 1 becomes 0 (R172). Bits 31:8 are not named and are ignored (R187). -/
def State.clearCauses (s : State) (value : Register) : State :=
  s.signal (s.cause &&& ~~~(value.setWidth 8)) s.mask

/-- A write to MASK (R173). Bits 31:8 are not named and are ignored (R187). -/
def State.writeMask (s : State) (value : Register) : State := s.signal s.cause (value.setWidth 8)

end Sys2Proof.Machine
end

