-- ==== Sys2Proof/Machine/History.lean ====
section
/-! DEFINITION. Frame order and the decision history: in-force lookup, trim, cut and push (chapter 5). -/
namespace Sys2Proof.Machine

/-- Frame a is after frame b when (a − b) mod 2^32 lies in 1 … 2^31 − 1 (R77). -/
def frameAfter (a b : Frame) : Bool :=
  decide (1 ≤ (a - b).toNat) && decide ((a - b).toNat ≤ 2 ^ 31 - 1)

/-- The distance from b to a (R77). -/
def frameDistance (b a : Frame) : Nat := (a - b).toNat

/-- An entry's effective frame is not after f; an absent one is not after any frame (R77). -/
def Entry.notAfter (e : Entry) (f : Frame) : Bool :=
  match e.effective with
  | none => true
  | some x => !frameAfter x f

/-- The whole history, oldest first (R78). -/
def Station.history (c : Station) : List Entry := c.older ++ [c.newest]

/-- The entries before the newest that stay when the history is trimmed for frame f: every entry that some later entry,
not after f, supersedes as the one in force, is removed (R79, R82). -/
def trimOlder (f : Frame) : List Entry → Entry → List Entry
  | [], _ => []
  | e :: rest, newest =>
    if (rest ++ [newest]).any (·.notAfter f) then trimOlder f rest newest else e :: rest

/-- The entry in force for frame f (R79): examined from the newest back to the second, the first not after f, else the
oldest. -/
def inForce (f : Frame) (older : List Entry) (newest : Entry) : Entry :=
  (trimOlder f older newest).headD newest

/-- The trim of stage 7 (R82). -/
def Station.trim (f : Frame) (c : Station) : Station :=
  { c with older := trimOlder f c.older c.newest }

/-- The cut: only the newest entry stays (R84). -/
def Station.cut (c : Station) : Station := { c with older := [] }

/-- An entry that a push at effective frame x leaves in place when it supersedes: one with an absent effective frame or
one earlier than x (R81). -/
def Entry.survives (x : Frame) (e : Entry) : Bool :=
  match e.effective with
  | none => true
  | some y => frameAfter x y

/-- The push of stage 12: append at the newest end, or supersede (R80, R81). -/
def Station.push (x : Frame) (e : Entry) (c : Station) : Station :=
  if c.newest.survives x then { c with older := c.history, newest := e }
  else { c with older := c.history.filter (·.survives x), newest := e }

end Sys2Proof.Machine
end

