-- ==== Sys2Proof/Machine/Bytes.lean ====
section
/-! DEFINITION. Byte order, fields of blocks and registers, and the checked conversion of a number to an id. -/
namespace Sys2Proof.Machine

/-- `size` bytes holding `value`, least significant first: multi-byte values are little-endian (00_scope.md, Numbers). -/
def leBytes : (size value : Nat) → List Byte
  | 0, _ => []
  | n + 1, v => BitVec.ofNat 8 v :: leBytes n (v / 256)

/-- The value of little-endian bytes. -/
def leNat : List Byte → Nat
  | [] => 0
  | b :: bs => b.toNat + 256 * leNat bs

/-- `bytes` brought to `size` bytes: cut, or filled with 0 at its end (every byte a layout does not name is 0: R192,
R194). -/
def padTo (size : Nat) (bytes : List Byte) : List Byte :=
  (bytes ++ List.replicate size 0).take size

/-- The unsigned little-endian content of `size` bytes at `offset` of a block (R190). -/
def content (b : Block64) (offset size : Nat) : Nat :=
  leNat ((b.toList.drop offset).take size)

/-- `length` bits of a register value from bit `low` up (R187, register fields). -/
def registerBits (v : Register) (low length : Nat) : Nat :=
  v.toNat / 2 ^ low % 2 ^ length

/-- A number as an id below `n`, or nothing where it names none. -/
def idOf (n x : Nat) : Option (Fin n) :=
  if h : x < n then some ⟨x, h⟩ else none

/-- The sizes a ring may have: a power of two in 8 … 1024 (R118, R142). -/
def ringSizeAccepted (size : Nat) : Bool :=
  [8, 16, 32, 64, 128, 256, 512, 1024].contains size

/-- CTRL.ENABLE as written (R187). -/
def ctrlEnable (v : Register) : Bool := v.getLsbD 0
/-- CTRL.QUIESCE as written (R187). -/
def ctrlQuiesce (v : Register) : Bool := v.getLsbD 1
/-- CTRL.SOFT_RESET as written (R187). -/
def ctrlSoftReset (v : Register) : Bool := v.getLsbD 2

/-- POST: the operation field, bits 23:20 (R188). -/
def postOperation (v : Register) : BitVec 4 := v.extractLsb' 20 4
/-- POST: the ring id field, bits 19:16 (R188). -/
def postRing (v : Register) : BitVec 4 := v.extractLsb' 16 4
/-- POST: the index field, bits 15:0 (R188). -/
def postIndex (v : Register) : RingIndex := v.extractLsb' 0 16

end Sys2Proof.Machine
end

