-- ==== Sys2Proof/Machine/Profiles.lean ====
section
/-! DEFINITION. The profile catalogue, acceptance of item values, consistency and merging (R96 to R98, R191). -/
namespace Sys2Proof.Machine

/-- The catalogue defaults (R96). -/
def Profile.defaults : Profile where
  innerLo := 1700
  innerHi := 1900
  outerLo := 1500
  outerHi := 2100
  rushLo := 600
  rushHi := 3400
  pace := .proportional
  damp := 8
  intMin := 1
  intMax := 65535
  gainMax := 256
  lvlMin := 1
  lvlMax := 256
  order := .ilg
  quantum := 0
  extMax := 0
  colLo := 0
  colHi := 7
  rowLo := 0
  rowHi := 7
  weightRows := Vector.replicate 8 0x11111111#32
  clipLimit := 240
  clipCellsMax := 64
  gapLimit := 8
  gapPolicy := .reseek
  inflight := .wait
  noticeMask := 0x1FF#9

/-- The field a one-byte field id names; nothing for an unknown field (R96). -/
def fieldOfId : Nat → Option Field
  | 0x01 => some .innerLo
  | 0x02 => some .innerHi
  | 0x03 => some .outerLo
  | 0x04 => some .outerHi
  | 0x05 => some .rushLo
  | 0x06 => some .rushHi
  | 0x07 => some .pace
  | 0x08 => some .damp
  | 0x09 => some .intMin
  | 0x0A => some .intMax
  | 0x0B => some .gainMax
  | 0x0C => some .lvlMin
  | 0x0D => some .lvlMax
  | 0x0E => some .order
  | 0x0F => some .quantum
  | 0x10 => some .extMax
  | 0x11 => some .colLo
  | 0x12 => some .colHi
  | 0x13 => some .rowLo
  | 0x14 => some .rowHi
  | 0x20 => some (.weightRow 0)
  | 0x21 => some (.weightRow 1)
  | 0x22 => some (.weightRow 2)
  | 0x23 => some (.weightRow 3)
  | 0x24 => some (.weightRow 4)
  | 0x25 => some (.weightRow 5)
  | 0x26 => some (.weightRow 6)
  | 0x27 => some (.weightRow 7)
  | 0x30 => some .clipLimit
  | 0x31 => some .clipCellsMax
  | 0x32 => some .gapLimit
  | 0x33 => some .gapPolicy
  | 0x34 => some .inflight
  | 0x35 => some .noticeMask
  | _ => none

/-- The least and the greatest accepted value of a field, as its 32-bit encoding (R96, R191). -/
def Field.range : Field → Nat × Nat
  | .innerLo | .innerHi | .outerLo | .outerHi | .rushLo | .rushHi | .quantum => (0, 4095)
  | .pace => (0, 2)
  | .damp => (1, 16)
  | .intMin | .intMax => (1, 65535)
  | .gainMax => (16, 1023)
  | .lvlMin | .lvlMax => (1, 256)
  | .order => (0, 5)
  | .extMax | .colLo | .colHi | .rowLo | .rowHi => (0, 7)
  | .weightRow _ => (0, 2 ^ 32 - 1)
  | .clipLimit | .gapLimit => (1, 255)
  | .clipCellsMax => (0, 64)
  | .gapPolicy | .inflight => (0, 1)
  | .noticeMask => (0, 0x1FF)

/-- An item's value lies in its field's accepted values (R96). -/
def Field.accepts (f : Field) (value : Nat) : Bool :=
  decide (f.range.1 ≤ value) && decide (value ≤ f.range.2)

/-- PACE's encoding 0 FINE, 1 COARSE, 2 PROPORTIONAL (R191). -/
def paceOf : Nat → Pace
  | 0 => .fine
  | 1 => .coarse
  | _ => .proportional

/-- PACE as encoded (R191). -/
def Pace.code : Pace → Nat
  | .fine => 0
  | .coarse => 1
  | .proportional => 2

/-- ORDER 0 … 5 (R66). -/
def orderOf : Nat → Order
  | 0 => .igl
  | 1 => .ilg
  | 2 => .lig
  | 3 => .lgi
  | 4 => .gil
  | _ => .gli

/-- ORDER as encoded (R66). -/
def Order.code : Order → Nat
  | .igl => 0
  | .ilg => 1
  | .lig => 2
  | .lgi => 3
  | .gil => 4
  | .gli => 5

/-- GAP_POLICY's encoding 0 RESEEK, 1 REPORT (R191). -/
def gapPolicyOf (v : Nat) : GapPolicy := if v = 0 then .reseek else .report

/-- GAP_POLICY as encoded (R191). -/
def GapPolicy.code : GapPolicy → Nat
  | .reseek => 0
  | .report => 1

/-- INFLIGHT's encoding 0 WAIT, 1 COMPENSATE (R191). -/
def inflightOf (v : Nat) : Inflight := if v = 0 then .wait else .compensate

/-- INFLIGHT as encoded (R191). -/
def Inflight.code : Inflight → Nat
  | .wait => 0
  | .compensate => 1

/-- Replace the value of one field (R98). The value was tested for range when its item was put (R96). -/
def Profile.replace (p : Profile) : Item → Profile
  | (.innerLo, v) => { p with innerLo := v.toNat }
  | (.innerHi, v) => { p with innerHi := v.toNat }
  | (.outerLo, v) => { p with outerLo := v.toNat }
  | (.outerHi, v) => { p with outerHi := v.toNat }
  | (.rushLo, v) => { p with rushLo := v.toNat }
  | (.rushHi, v) => { p with rushHi := v.toNat }
  | (.pace, v) => { p with pace := paceOf v.toNat }
  | (.damp, v) => { p with damp := v.toNat }
  | (.intMin, v) => { p with intMin := v.toNat }
  | (.intMax, v) => { p with intMax := v.toNat }
  | (.gainMax, v) => { p with gainMax := v.toNat }
  | (.lvlMin, v) => { p with lvlMin := v.toNat }
  | (.lvlMax, v) => { p with lvlMax := v.toNat }
  | (.order, v) => { p with order := orderOf v.toNat }
  | (.quantum, v) => { p with quantum := v.toNat }
  | (.extMax, v) => { p with extMax := v.toNat }
  | (.colLo, v) => { p with colLo := v.toNat }
  | (.colHi, v) => { p with colHi := v.toNat }
  | (.rowLo, v) => { p with rowLo := v.toNat }
  | (.rowHi, v) => { p with rowHi := v.toNat }
  | (.weightRow r, v) => { p with weightRows := p.weightRows.set r v }
  | (.clipLimit, v) => { p with clipLimit := v.toNat }
  | (.clipCellsMax, v) => { p with clipCellsMax := v.toNat }
  | (.gapLimit, v) => { p with gapLimit := v.toNat }
  | (.gapPolicy, v) => { p with gapPolicy := gapPolicyOf v.toNat }
  | (.inflight, v) => { p with inflight := inflightOf v.toNat }
  | (.noticeMask, v) => { p with noticeMask := BitVec.ofNat 9 v.toNat }

/-- Merge a set's items over a base profile, in item order (R98). -/
def Profile.merge (base : Profile) (items : List Item) : Profile :=
  items.foldl Profile.replace base

/-- The nine relations in the order of their numbers (R97). -/
def Profile.relations (p : Profile) : List Bool :=
  [ decide (p.outerLo ≤ p.innerLo), decide (p.innerLo < p.innerHi), decide (p.innerHi ≤ p.outerHi),
    decide (p.rushLo ≤ p.outerLo), decide (p.rushHi ≥ p.outerHi), decide (p.intMin ≤ p.intMax),
    decide (p.lvlMin ≤ p.lvlMax), decide (p.colLo ≤ p.colHi), decide (p.rowLo ≤ p.rowHi) ]

/-- A profile is consistent when all nine relations hold (R97). -/
def Profile.consistent (p : Profile) : Bool := p.relations.all id

/-- The number of the first relation that fails, or 0 (R97, R117). -/
def Profile.failingRelation (p : Profile) : Nat :=
  if p.consistent then 0 else p.relations.findIdx (!·) + 1

/-- The weight of column c in a WEIGHT_ROW value (R191). -/
def weightOf (row : BitVec 32) (c : Nat) : Nat := row.toNat / 2 ^ (4 * c) % 16

/-- The 84 profile bytes of a snapshot: ids 0x01 … 0x14 in 2 bytes each, the weight rows in 4, ids 0x30 … 0x35 in 2 (the
profile table before R194). -/
def Profile.bytes (p : Profile) : List Byte :=
  ([ p.innerLo, p.innerHi, p.outerLo, p.outerHi, p.rushLo, p.rushHi, p.pace.code, p.damp, p.intMin, p.intMax, p.gainMax,
      p.lvlMin, p.lvlMax, p.order.code, p.quantum, p.extMax, p.colLo, p.colHi, p.rowLo, p.rowHi ].flatMap (leBytes 2))
    ++ p.weightRows.toList.flatMap (fun w => leBytes 4 w.toNat)
    ++ ([ p.clipLimit, p.clipCellsMax, p.gapLimit, p.gapPolicy.code, p.inflight.code, p.noticeMask.toNat ].flatMap
          (leBytes 2))

end Sys2Proof.Machine
end

