-- ==== Sys2Proof/Machine/Metering.lean ====
section
/-! DEFINITION. Grids and metering (chapter 2). -/
namespace Sys2Proof.Machine

/-- A grid cell from its 32-bit word: mean in bits 11:0, clip fraction in 23:16, valid mark in bit 31 (R191). -/
def cellOf (word : Nat) : Cell :=
  { mean := word % 2 ^ 12, clip := word / 2 ^ 16 % 2 ^ 8, valid := word / 2 ^ 31 % 2 == 1 }

/-- The cells of grid bytes: one 32-bit little-endian word each, row-major, no padding (R23, R27). -/
def cellsOf : List Byte → List Cell
  | b0 :: b1 :: b2 :: b3 :: rest => cellOf (leNat [b0, b1, b2, b3]) :: cellsOf rest
  | _ => []

/-- A synthetic grid of C columns and R rows, row-major: FLAT gives B, RAMP gives min(4095, B + (c + r) × S); every cell
valid with clip fraction 0 (R37). -/
def synthesize (ramp : Bool) (base slope columns rows : Nat) : List Cell :=
  (List.range (columns * rows)).map fun k =>
    { mean := if ramp then min 4095 (base + (k % columns + k / columns) * slope) else base, clip := 0, valid := true }

/-- The weight of a used cell, or 0 for a cell that is not used: inside the window, valid, and weighted above 0 (R32).
Cell k of a grid of `columns` columns is (k mod columns, k div columns) (R23). -/
def usedWeight (p : Profile) (columns : Nat) (k : Nat) (cell : Cell) : Nat :=
  let c := k % columns
  let r := k / columns
  if p.colLo ≤ c ∧ c ≤ p.colHi ∧ p.rowLo ≤ r ∧ r ≤ p.rowHi ∧ cell.valid then
    weightOf (p.weightRows.toList.getD r 0) c
  else 0

/-- The sums of metering: Σw, Σ w × mean, and the clip count (R33, R34). -/
structure Sums where
  weight : Nat
  weighted : Nat
  clipped : Nat
  deriving DecidableEq, Repr

/-- The sums over the cells from number k on. -/
def sumCells (p : Profile) (columns : Nat) : Nat → List Cell → Sums
  | _, [] => ⟨0, 0, 0⟩
  | k, cell :: rest =>
    let w := usedWeight p columns k cell
    let s := sumCells p columns (k + 1) rest
    { weight := w + s.weight, weighted := w * cell.mean + s.weighted,
      clipped := (if 0 < w ∧ p.clipLimit ≤ cell.clip then 1 else 0) + s.clipped }

/-- What metering hands on: the mean, absent when Σw is 0; the clip count; the veto (R33 to R36). -/
structure Metered where
  mean : Option Nat
  clip : Nat
  veto : Bool
  deriving DecidableEq, Repr

/-- Metering of a grid under a profile (R31 to R36). -/
def meter (p : Profile) (columns : Nat) (cells : List Cell) : Metered :=
  let s := sumCells p columns 0 cells
  { mean := if s.weight = 0 then none else some (s.weighted / s.weight)
    clip := s.clipped
    veto := decide (p.clipCellsMax < s.clipped) }

end Sys2Proof.Machine
end

