-- ==== Sys2Proof/Machine/Loop.lean ====
section
/-! DEFINITION. The evaluation of a MEASURE in its fourteen stages (R38), on the station and the staging sets; stage 1 is
the common check of home-ring commands. -/
namespace Sys2Proof.Machine

/-! ## Stage 4: the gap check (R87 to R89) -/

/-- A gap is found: the last frame is present and the distance to f is above GAP_LIMIT times the span of the entry in
force for the last frame (R87). -/
def Station.gapAt (f : Frame) (c : Station) : Bool :=
  match c.lastFrame with
  | none => false
  | some last => decide (frameDistance last f > c.profile.gapLimit * (inForce last c.older c.newest).span)

/-- What stage 4 hands on: the station and the conditions raised with the rest of the evaluation's raises (R89). -/
structure GapResult where
  station : Station
  raises : List Condition
  deriving DecidableEq, Repr

/-- The gap check and the action of GAP_POLICY (R87, R88, R89). -/
def gapStage (f : Frame) (c : Station) : GapResult :=
  if !c.gapAt f then ⟨c, []⟩
  else match c.profile.gapPolicy with
    | .report => ⟨c, [.gap]⟩
    | .reseek =>
      match c.loop with
      | .frozen | .seeking => ⟨c.cut, [.gap]⟩
      | .idle | .settled | .pinnedDark | .pinnedBright => ⟨{ c.cut with loop := .seeking }, [.gap, .seek]⟩

/-! ## Stage 5: armed application (R110 to R113) -/

/-- Land one armed set: merge, then install and raise APPLIED or keep and raise REJECTED (R110, R113). -/
def landItems (items : List Item) (c : Station) : Station :=
  let merged := c.profile.merge items
  if merged.consistent then ({ c with profile := merged } : Station).raise .applied else c.raise .rejected

/-- Take the listed sets in order: one not after f lands, leaves the armed list and becomes FREE; the others stay. -/
def applySets (f : Frame) : List SetId → Station → Vector StagingSet 8 → Station × Vector StagingSet 8
  | [], c, sets => (c, sets)
  | id :: rest, c, sets =>
    match sets[id] with
    | .armed _ items _ frame =>
      if frameAfter frame f then applySets f rest c sets
      else applySets f rest { landItems items c with armed := c.armed.erase id } (sets.set id .free)
    | .free | .opened _ _ => applySets f rest c sets

/-- Stage 5 on the station's armed list (R110). -/
def armedStage (f : Frame) (c : Station) (sets : Vector StagingSet 8) : Station × Vector StagingSet 8 :=
  applySets f c.armed c sets

/-! ## Stage 8: late measurements (R90 to R93) -/

/-- The compensated mean of stage 8, after the trim: M when the history holds one entry; under COMPENSATE the rescaled
mean; nothing under WAIT, which ends the evaluation (R90, R91, R92). -/
def compensated (c : Station) (mean : Nat) : Option Nat :=
  match c.older with
  | [] => some mean
  | oldest :: _ =>
    match c.profile.inflight with
    | .wait => none
    | .compensate => some (min 4095 (mean * c.newest.product / oldest.product))

/-! ## Stage 10: the loop state machine and the step (R43 to R55) -/

/-- What stage 10 does with a mean: no step and an exit state, the veto response, or a step up or down. -/
inductive Move where
  | rest (exit : LoopState)
  | veto
  | up
  | down
  deriving DecidableEq, Repr

/-- The decision of stage 10 (R45, R46, R49). -/
def chooseMove (p : Profile) (entry : LoopState) (veto : Bool) (mc : Nat) : Move :=
  if veto then .veto
  else if entry = .settled then
    if mc < p.outerLo then .up else if p.outerHi < mc then .down else .rest .settled
  else
    if mc < p.innerLo then .up else if p.innerHi < mc then .down else .rest .settled

/-- A step of FINE or COARSE: the rush thresholds act before the pace's own ratio (R51, R52). -/
def ratioStep (p : Profile) (e mc upNum downNum den : Nat) (up : Bool) : Nat :=
  if p.rushHi < mc then e / 2
  else if mc < p.rushLo then 2 * e
  else if up then e * upNum / den else e * downNum / den

/-- The clamped aim of PROPORTIONAL (R53). -/
def aim (p : Profile) (e mc : Nat) : Nat :=
  clampTo (e / 4) (4 * e) (e * ((p.innerLo + p.innerHi) / 2) / max mc 1)

/-- The damped aim: the signed difference times DAMP / 16, truncated toward E (R54). -/
def damped (p : Profile) (e raw : Nat) : Nat :=
  if e ≤ raw then e + (raw - e) * p.damp / 16 else e - (e - raw) * p.damp / 16

/-- A step of PROPORTIONAL with its nudge (R53, R54, R55). -/
def proportionalStep (p : Profile) (e mc : Nat) (up : Bool) : Nat :=
  let d := damped p e (aim p e mc)
  if d = e then (if up then e + 1 else e - 1) else d

/-- The new product of a step up or down under the station's PACE (R50 to R55). -/
def stepProduct (p : Profile) (e mc : Nat) (up : Bool) : Nat :=
  match p.pace with
  | .fine => ratioStep p e mc 17 15 16 up
  | .coarse => ratioStep p e mc 5 3 4 up
  | .proportional => proportionalStep p e mc up

/-- The new product of the veto response (R46). -/
def vetoProduct (e : Nat) : Nat := e * 3 / 4

/-- The allocated values are those of an entry (R47). -/
def Settings.same (v : Settings) (e : Entry) : Bool := v.i == e.i && v.g == e.g && v.l == e.l

/-- What stages 10 to 13 do: the station after them and whether stage 12 pushed. -/
structure LoopResult where
  station : Station
  pushed : Bool
  deriving DecidableEq, Repr

/-- Allocate a product and push it when it differs from the newest entry (R47, R56, R72, R80). -/
def moveTo (f : Frame) (product : Nat) (c : Station) : LoopResult :=
  let v := decompose c.profile c.frameLines product
  if v.same c.newest then ⟨c, false⟩
  else
    let x := f + BitVec.ofNat 32 c.applyDelay
    ⟨c.push x (entryOf c.frameLines (some x) v), true⟩

/-- Enter an exit state: its condition is raised when it differs from the entry state (R48). -/
def enter (exit : LoopState) (c : Station) : Station :=
  if exit = c.loop then c
  else ({ c with loop := exit } : Station).raiseAll exit.condition.toList

/-- The exit state of a step that was not a veto response (R47). -/
def exitAfter (pushed up : Bool) : LoopState :=
  if pushed then .seeking else if up then .pinnedDark else .pinnedBright

/-- Stages 10 to 13 (R45 to R49, R56). -/
def loopStage (f : Frame) (veto : Bool) (mc : Nat) (c : Station) : LoopResult :=
  match chooseMove c.profile c.loop veto mc with
  | .rest exit => ⟨enter exit c, false⟩
  | .veto =>
    let r := moveTo f (vetoProduct c.newest.product) c
    ⟨(enter .seeking r.station).raise .highlight, r.pushed⟩
  | .up =>
    let r := moveTo f (stepProduct c.profile c.newest.product mc true) c
    ⟨enter (exitAfter r.pushed true) r.station, r.pushed⟩
  | .down =>
    let r := moveTo f (stepProduct c.profile c.newest.product mc false) c
    ⟨enter (exitAfter r.pushed false) r.station, r.pushed⟩

/-! ## Stage 14 and the whole evaluation -/

/-- Record the last values and count a measure evaluated (R36, R41, R42, R57). -/
def Station.record (f : Frame) (mean comp : Option Nat) (clip : Nat) (c : Station) : Station :=
  { c with lastFrame := some f, lastMean := mean, lastCompensated := comp, lastClip := some clip,
           measures := c.measures + 1 }

/-- The grid a MEASURE names, as its record and slot give it at execution (R24, R37). -/
structure GridSource where
  columns : Nat
  rows : Nat
  /-- Present when SYNTH is set: RAMP rather than FLAT, base level B, slope S. -/
  synthetic : Option (Bool × Nat × Nat)
  status : GridStatus
  deriving DecidableEq, Repr

/-- The cells metering reads: the synthetic grid, or the slot's buffer (R31). -/
def GridSource.cells (g : GridSource) : List Cell :=
  match g.synthetic with
  | some (ramp, base, slope) => synthesize ramp base slope g.columns g.rows
  | none =>
    match g.status with
    | .held cells => cells
    | .none | .inFlight | .failed => []

/-- The fetch of the grid failed (R29); a synthetic grid cannot fail (R37). -/
def GridSource.faulted (g : GridSource) : Bool :=
  g.synthetic.isNone && decide (g.status = .failed)

/-- What an evaluation leaves and reports (R58). -/
structure Evaluation where
  station : Station
  sets : Vector StagingSet 8
  status : Status
  outcome : MeasureOutcome
  mean : Option Nat
  compensated : Option Nat
  clip : Option Nat
  veto : Bool
  deriving DecidableEq, Repr

/-- A MEASURE is stale: the last frame is present and f is not after it (R86). -/
def Station.stale (f : Frame) (c : Station) : Bool :=
  match c.lastFrame with
  | none => false
  | some last => !frameAfter f last

/-- Stages 9 to 14 for a measurement that stage 8 let through with its compensated mean (R42, R57). -/
def evaluateLoop (f : Frame) (m : Metered) (mean mc : Nat) (c : Station) (sets : Vector StagingSet 8) : Evaluation :=
  if c.loop = .frozen then
    { station := c.record f (some mean) (some mc) m.clip, sets, status := .ok, outcome := .held, mean := some mean,
      compensated := some mc, clip := some m.clip, veto := m.veto }
  else
    let r := loopStage f m.veto mc c
    let c' := r.station.record f (some mean) (some mc) m.clip
    { station := if r.pushed then { c' with decisions := c'.decisions + 1 } else c'
      sets, status := .ok, outcome := if r.pushed then .decided else .unchanged
      mean := some mean, compensated := some mc, clip := some m.clip, veto := m.veto }

/-- Stages 6 to 14, with the raises of stage 4 made (R36, R41, R82, R90). -/
def evaluateGrid (f : Frame) (g : GridSource) (c : Station) (sets : Vector StagingSet 8) : Evaluation :=
  let m := meter c.profile g.columns g.cells
  match m.mean with
  | none =>
    { station := c.record f none none 0, sets, status := .ok, outcome := .empty, mean := none, compensated := none,
      clip := some 0, veto := false }
  | some mean =>
    let c := c.trim f
    match compensated c mean with
    | none =>
      let c' := c.record f (some mean) none m.clip
      { station := { c' with skipped := c'.skipped + 1 }, sets, status := .ok, outcome := .skippedPending,
        mean := some mean, compensated := none, clip := some m.clip, veto := m.veto }
    | some mc => evaluateLoop f m mean mc c sets

/-- Stages 2 to 14 of an evaluation for frame f (R38). -/
def evaluate (f : Frame) (g : GridSource) (c : Station) (sets : Vector StagingSet 8) : Evaluation :=
  if c.stale f then
    { station := { c with measures := c.measures + 1, skipped := c.skipped + 1 }, sets, status := .ok,
      outcome := .skippedStale, mean := none, compensated := none, clip := none, veto := false }
  else if g.faulted then
    { station := c.raise .grid, sets, status := .gridFault, outcome := .none, mean := none, compensated := none,
      clip := none, veto := false }
  else
    let gap := gapStage f c
    let landed := armedStage f gap.station sets
    evaluateGrid f g (landed.1.raiseAll gap.raises) landed.2

end Sys2Proof.Machine
end

