-- ==== Sys2Proof/Config.lean ====
section
/-! DEFINITION. What is fixed for the machine: the capacities and constants the manual gives, and the one free value. -/
namespace Sys2Proof

/-- IDENT: device code 0x0610, family code 0x2C, revision 0x01 (R187). -/
def Config.ident : Register := 0x06102C01#32

/-- The fixed capacities QUERY_DEVICE reports (R152). -/
def Config.stations : Nat := 32
def Config.workRings : Nat := 8
def Config.resultRings : Nat := 4
def Config.stagingSets : Nat := 8
def Config.poolBlocks : Nat := 24

/-- Items one pool block holds (R101). -/
def Config.blockItems : Nat := 8

/-- The in-flight limit of a work ring: 1 for the control ring, 4 for a station ring (R122). -/
def Config.inFlightLimit (ring : WorkRingId) : Nat := if ring = 0 then 1 else 4

/-- FREE VALUE: whether the link port had passed byte `offset` of a write before that write failed or was abandoned.
`draw` numbers the failed and abandoned writes of a run. R14, R145, R163, R182 and R194 leave any part of the write in
host memory. It has no body, so nothing can be proved of it (log entry 6). -/
opaque Config.linkPassed : (draw offset : Nat) → Bool

end Sys2Proof
end

