-- ==== Sys2Proof/Machine/Memory.lean ====
section
/-! DEFINITION. The host memory the device writes: one byte read, one byte written, runs of bytes, and the part of a
failed or abandoned write that the link port had passed. -/
namespace Sys2Proof.Machine

/-- The canonical form: addresses strictly rising. An unlisted address reads as "not written by the device", which no
entry equals. -/
def Memory.wf : Memory → Bool
  | [] => true
  | [_] => true
  | c :: d :: rest => decide (c.1 < d.1) && Memory.wf (d :: rest)

/-- The byte last written at an address, if the device has written it. -/
def Memory.read : Memory → Nat → Option Byte
  | [], _ => none
  | c :: rest, a => if c.1 = a then some c.2 else Memory.read rest a

/-- Write one byte, keeping the canonical form. -/
def Memory.write : Memory → Nat → Byte → Memory
  | [], a, b => [(a, b)]
  | c :: rest, a, b =>
    if a < c.1 then (a, b) :: c :: rest
    else if a = c.1 then (a, b) :: rest
    else c :: Memory.write rest a b

/-- Write consecutive bytes; the address wraps at 2^64 (log entry 8). -/
def Memory.writeBytes : Memory → Address → List Byte → Memory
  | m, _, [] => m
  | m, a, b :: bs => Memory.writeBytes (Memory.write m a.toNat b) (a + 1) bs

/-- The part of a failed or abandoned write that reached memory: each byte holds its earlier content or the new byte, as
`Config.linkPassed` leaves open (R14, R145, R182, R194). -/
def Memory.writePart (draw : Nat) : Memory → Address → Nat → List Byte → Memory
  | m, _, _, [] => m
  | m, a, k, b :: bs =>
    Memory.writePart draw (if Config.linkPassed draw k then Memory.write m a.toNat b else m) (a + 1) (k + 1) bs

end Sys2Proof.Machine
end

