-- ==== Sys2Proof/Machine/Operands.lean ====
section
/-! DEFINITION. The operand forms: the contents of work records (R190, R191), of the setup block (R189), and what a
record names. -/
namespace Sys2Proof.Machine

/-! ## Kind codes (R190) -/

def Kind.queryDevice : Nat := 0x01
def Kind.createWorkRing : Nat := 0x02
def Kind.deleteWorkRing : Nat := 0x03
def Kind.createResultRing : Nat := 0x04
def Kind.deleteResultRing : Nat := 0x05
def Kind.openStation : Nat := 0x08
def Kind.closeStation : Nat := 0x09
def Kind.readStation : Nat := 0x0A
def Kind.measure : Nat := 0x10
def Kind.freeze : Nat := 0x11
def Kind.thaw : Nat := 0x12
def Kind.reseek : Nat := 0x13
def Kind.setActuators : Nat := 0x14
def Kind.ackNotice : Nat := 0x15
def Kind.stageOpen : Nat := 0x18
def Kind.stagePut : Nat := 0x19
def Kind.stageCommit : Nat := 0x1A
def Kind.stageDiscard : Nat := 0x1B

/-- The eighteen kind codes of R190's table. -/
def Kind.known : List Nat :=
  [ Kind.queryDevice, Kind.createWorkRing, Kind.deleteWorkRing, Kind.createResultRing, Kind.deleteResultRing,
    Kind.openStation, Kind.closeStation, Kind.readStation, Kind.measure, Kind.freeze, Kind.thaw, Kind.reseek,
    Kind.setActuators, Kind.ackNotice, Kind.stageOpen, Kind.stagePut, Kind.stageCommit, Kind.stageDiscard ]

/-- The kinds whose record names a station at offset 0x08 (R151, R190); STAGE_COMMIT names its station at 0x09. -/
def Kind.stationAt8 : List Nat :=
  [ Kind.openStation, Kind.closeStation, Kind.readStation, Kind.measure, Kind.freeze, Kind.thaw, Kind.reseek,
    Kind.setActuators, Kind.ackNotice ]

/-! ## The header and the bodies of work records (R190) -/

/-- The kind byte. -/
def recordKind (r : Block64) : Nat := content r 0x00 1
/-- The SYNTH flag, read for MEASURE only. -/
def recordSynth (r : Block64) : Bool := content r 0x01 1 % 2 == 1
/-- The host tag. -/
def recordTag (r : Block64) : BitVec 16 := BitVec.ofNat 16 (content r 0x02 2)
/-- Byte 0x08: a station, ring or set id. -/
def recordByte8 (r : Block64) : Nat := content r 0x08 1
/-- Byte 0x09: home ring, bound result ring, grid columns, item count, or STAGE_COMMIT's station. -/
def recordByte9 (r : Block64) : Nat := content r 0x09 1
/-- Byte 0x0A: notice ring, weight, grid rows or mode. -/
def recordByteA (r : Block64) : Nat := content r 0x0A 1
/-- Byte 0x0B: OPEN_STATION's set id or MEASURE's pattern. -/
def recordByteB (r : Block64) : Nat := content r 0x0B 1
/-- The 2 bytes at 0x0C: a ring size or F. -/
def recordSize (r : Block64) : Nat := content r 0x0C 2
/-- CREATE_RESULT_RING's threshold, 2 bytes at 0x0E. -/
def recordThreshold (r : Block64) : Nat := content r 0x0E 2
/-- OPEN_STATION's apply delay, byte 0x0E. -/
def recordDelay (r : Block64) : Nat := content r 0x0E 1
/-- The frame at 0x0C: measured, or effective. -/
def recordFrame (r : Block64) : Frame := BitVec.ofNat 32 (content r 0x0C 4)
/-- I, G and L at 0x10, 0x12 and 0x14. -/
def recordI (r : Block64) : Nat := content r 0x10 2
def recordG (r : Block64) : Nat := content r 0x12 2
def recordL (r : Block64) : Nat := content r 0x14 2
/-- The 64-bit address at 0x10: a base, buffer or grid address. -/
def recordAddress (r : Block64) : Address := BitVec.ofNat 64 (content r 0x10 8)
/-- MEASURE's base level B and slope S. -/
def recordBase (r : Block64) : Nat := content r 0x18 2
def recordSlope (r : Block64) : Nat := content r 0x1A 2

/-- The station byte a completion's header carries for a record: the station as named, or 0xFF for NONE (R151, R192). -/
def stationByte (r : Block64) : Byte :=
  if Kind.stationAt8.contains (recordKind r) then BitVec.ofNat 8 (recordByte8 r)
  else if recordKind r = Kind.stageCommit then BitVec.ofNat 8 (recordByte9 r)
  else 0xFF#8

/-- A record names a station: for the station and staging commands that name one (R8, R151). -/
def namesStation (r : Block64) (id : StationId) : Bool :=
  if Kind.stationAt8.contains (recordKind r) then recordByte8 r == id.val
  else recordKind r == Kind.stageCommit && recordByte9 r == id.val

/-! ## Field checks of more than one command -/

/-- The actuator values lie in the device-wide ranges: I from 1, G in 16 … 1023, L in 1 … 256 (R4, R18, R61). -/
def actuatorsAccepted (r : Block64) : Bool :=
  decide (1 ≤ recordI r) && decide (16 ≤ recordG r) && decide (recordG r ≤ 1023) && decide (1 ≤ recordL r)
    && decide (recordL r ≤ 256)

/-- The grid fields a fetch needs: C and R in 1 … 8 and an address that is a multiple of 4 (R24, R26). -/
def gridAccepted (r : Block64) : Bool :=
  decide (1 ≤ recordByte9 r) && decide (recordByte9 r ≤ 8) && decide (1 ≤ recordByteA r)
    && decide (recordByteA r ≤ 8) && (recordSynth r || (recordAddress r).toNat % 4 == 0)

/-- The field check of a MEASURE but for its station id (R24). -/
def measureAccepted (r : Block64) : Bool :=
  gridAccepted r
    && (!recordSynth r
        || (decide (recordByteB r ≤ 1) && decide (recordBase r ≤ 4095) && decide (recordSlope r ≤ 4095)))

/-- The grid of a MEASURE is fetched: a MEASURE from a station ring with SYNTH clear and valid grid fields (R26). -/
def fetchesGrid (ring : WorkRingId) (r : Block64) : Bool :=
  recordKind r == Kind.measure && decide (ring ≠ 0) && !recordSynth r && gridAccepted r

/-! ## Staging items (R190, R191) -/

/-- Item j of a STAGE_PUT: its field id and value, when the field is known and the value accepted (R96, R191). -/
def recordItem (r : Block64) (j : Nat) : Option Item :=
  match fieldOfId (content r (0x10 + 8 * j) 1) with
  | none => none
  | some f =>
    let v := content r (0x14 + 8 * j) 4
    if f.accepts v then some (f, BitVec.ofNat 32 v) else none

/-- The first `count` items from item j on, or nothing if any is bad (R103). -/
def recordItems (r : Block64) : (count j : Nat) → Option (List Item)
  | 0, _ => some []
  | n + 1, j =>
    match recordItem r j, recordItems r n (j + 1) with
    | some it, some rest => some (it :: rest)
    | _, _ => none

/-! ## The setup block (R162, R189) -/

/-- The contents of a setup block at their offsets (R189). -/
def setupOf (b : Block64) : Setup where
  controlBase := BitVec.ofNat 64 (content b 0x08 8)
  controlSize := content b 0x10 2
  resultBase := BitVec.ofNat 64 (content b 0x18 8)
  resultSize := content b 0x20 2
  resultThreshold := content b 0x22 2
  writeBack := BitVec.ofNat 64 (content b 0x28 8)

/-- Every content of a setup block has an accepted value, in the order of the table's rows (R162, R189). -/
def setupAccepted (b : Block64) : Bool :=
  let u := setupOf b
  content b 0x00 4 == 1 && u.controlBase.toNat % 64 == 0 && ringSizeAccepted u.controlSize
    && u.resultBase.toNat % 32 == 0 && ringSizeAccepted u.resultSize
    && decide (1 ≤ u.resultThreshold) && decide (u.resultThreshold ≤ u.resultSize)
    && u.writeBack.toNat % 32 == 0

end Sys2Proof.Machine
end

