-- ==== Sys2Proof/Machine/Pool.lean ====
section
/-! DEFINITION. The staging pool: what a set holds, the free counts, and putting items (R100 to R105). -/
namespace Sys2Proof.Machine

/-- The items of a set. -/
def StagingSet.items : StagingSet → List Item
  | .free => []
  | .opened _ items => items
  | .armed _ items _ _ => items

/-- The state of a set. -/
def StagingSet.state : StagingSet → SetState
  | .free => .free
  | .opened _ _ => .opened
  | .armed _ _ _ _ => .armed

/-- The owner ring of a set that is not FREE. -/
def StagingSet.owner : StagingSet → Option WorkRingId
  | .free => none
  | .opened owner _ => some owner
  | .armed owner _ _ _ => some owner

/-- The blocks that n items take: ceil(n / 8) (R101). -/
def blocksFor (n : Nat) : Nat := (n + (Config.blockItems - 1)) / Config.blockItems

/-- The blocks a set holds (R101). -/
def StagingSet.blocks (x : StagingSet) : Nat := blocksFor x.items.length

/-- The blocks held by all sets. -/
def heldBlocks (sets : Vector StagingSet 8) : Nat := (sets.toList.map StagingSet.blocks).sum

/-- The pool's free blocks: those of the 24 that no set holds (R101). -/
def freeBlocks (sets : Vector StagingSet 8) : Nat := Config.poolBlocks - heldBlocks sets

/-- The pool's free set ids (R101). -/
def freeSetIds (sets : Vector StagingSet 8) : Nat := (sets.toList.filter (· == .free)).length

/-- The lowest FREE set id (R102). -/
def lowestFreeSet (sets : Vector StagingSet 8) : Option SetId :=
  (List.finRange 8).find? fun id => sets[id] == .free

/-- A set is OPEN and owned by a ring: freed with the ring (R115). -/
def StagingSet.openOwnedBy (ring : WorkRingId) : StagingSet → Bool
  | .opened owner _ => owner == ring
  | .free | .armed _ _ _ _ => false

/-- Put one item: replace the value of a field already held in its place, else append (R104). -/
def putItem (it : Item) : List Item → List Item
  | [] => [it]
  | x :: rest => if x.1 = it.1 then it :: rest else x :: putItem it rest

/-- Put a record's items in record order (R104). -/
def putItems (items held : List Item) : List Item :=
  items.foldl (fun acc it => putItem it acc) held

/-- The further blocks a put needs: ceil((n + m)/8) − ceil(n/8), with m the new fields (R103). -/
def blocksNeeded (items held : List Item) : Nat :=
  blocksFor (putItems items held).length - blocksFor held.length

end Sys2Proof.Machine
end

