-- ==== Sys2Proof/Machine/Records.lean ====
section
/-! DEFINITION. What the device writes into host memory: completions and notices (R192, R193) and the station snapshot
(R13, R194). -/
namespace Sys2Proof.Machine

/-! ## Codes (tables before R192) -/

def Status.code : Status → Nat
  | .ok => 0
  | .badKind => 1
  | .badField => 2
  | .noStation => 3
  | .stationInUse => 4
  | .stationClosing => 5
  | .wrongRing => 6
  | .noRing => 7
  | .ringExists => 8
  | .ringInUse => 9
  | .noSet => 10
  | .notOwner => 11
  | .setLimit => 12
  | .noSpace => 13
  | .armLimit => 14
  | .armConflict => 15
  | .profileInvalid => 16
  | .bufferFault => 17
  | .gridFault => 18
  | .recordUnreadable => 19

def MeasureOutcome.code : MeasureOutcome → Nat
  | .none => 0
  | .decided => 1
  | .unchanged => 2
  | .skippedStale => 3
  | .skippedPending => 4
  | .held => 5
  | .empty => 6

def LoopState.code : LoopState → Nat
  | .idle => 0
  | .seeking => 1
  | .settled => 2
  | .pinnedDark => 3
  | .pinnedBright => 4
  | .frozen => 5

def StationState.code : StationState → Nat
  | .free => 0
  | .opened => 1
  | .closing => 2

def SetState.code : SetState → Nat
  | .free => 0
  | .opened => 1
  | .armed => 2

/-- One byte. -/
def byte (v : Nat) : List Byte := leBytes 1 v

/-- A metering content: absent is written 0xFFFF (R58, R192). -/
def metering (v : Option Nat) : List Byte := leBytes 2 (v.getD 0xFFFF)

/-- A flag as 0 or 1. -/
def bit (b : Bool) : Nat := if b then 1 else 0

/-- The effective frame of an entry as written: 0 with the base mark (R192, R194). -/
def Entry.frameValue (e : Entry) : Nat := (e.effective.getD 0).toNat

/-! ## Completion bodies, bytes 0x08 to 0x1F (table before R192) -/

def Body.bytes : Body → List Byte
  | .blank => []
  | .home outcome veto mean comp clip none =>
    byte outcome.code ++ byte 0 ++ byte (bit veto) ++ byte 0 ++ metering mean ++ metering comp ++ metering clip
  | .home outcome veto mean comp clip (some rep) =>
    byte outcome.code ++ byte rep.loop.code ++ byte (bit veto + 2 * bit rep.newest.effective.isNone) ++ byte 0
      ++ metering mean ++ metering comp ++ metering clip
      ++ leBytes 2 rep.newest.i ++ leBytes 2 rep.newest.g ++ leBytes 2 rep.newest.l ++ leBytes 4 rep.newest.frameValue
  | .openStation setId loop relation station i g l =>
    byte setId ++ byte loop.code ++ byte relation ++ byte station ++ leBytes 6 0 ++ leBytes 2 i ++ leBytes 2 g
      ++ leBytes 2 l
  | .closeStation freed measures decisions skipped =>
    byte freed ++ leBytes 3 0 ++ leBytes 4 measures.toNat ++ leBytes 4 decisions.toNat ++ leBytes 4 skipped.toNat
  | .readStation state loop => byte state.code ++ byte loop.code
  | .stage setId freeBlocks freeIds relation itemCount blocksHeld prior position frame =>
    byte setId ++ byte freeBlocks ++ byte freeIds ++ byte relation ++ byte itemCount ++ byte blocksHeld
      ++ byte prior.code ++ byte position ++ leBytes 4 frame.toNat
  | .createWorkRing ring resultRing size => byte ring ++ byte resultRing ++ leBytes 2 0 ++ leBytes 2 size
  | .deleteWorkRing ring setsFreed abandoned => byte ring ++ byte setsFreed ++ leBytes 2 0 ++ leBytes 2 abandoned
  | .createResultRing ring size threshold => byte ring ++ leBytes 3 0 ++ leBytes 2 size ++ leBytes 2 threshold
  | .deleteResultRing ring lost => byte ring ++ leBytes 3 0 ++ leBytes 2 lost
  | .queryDevice freeBlocks freeIds freeSlots =>
    byte 32 ++ byte 8 ++ byte 4 ++ byte 8 ++ byte 24 ++ byte freeBlocks ++ byte freeIds ++ byte freeSlots
  | .unreadable index => leBytes 4 0 ++ leBytes 2 index.toNat

/-- The 32 bytes of a COMPLETION (R192). -/
def Completion.bytes (c : Completion) : List Byte :=
  padTo 32 (byte 0x81 ++ byte c.status.code ++ leBytes 2 c.tag.toNat ++ byte c.ring.val ++ byte c.station.toNat
    ++ leBytes 2 0 ++ c.body.bytes)

/-- The 32 bytes of a NOTICE: the contents captured at its emission (R155, R193). -/
def noticeBytes (id : StationId) (c : Station) : List Byte :=
  padTo 32 (byte 0x82 ++ byte 0 ++ leBytes 2 0 ++ byte 0xFF ++ byte id.val ++ leBytes 2 0
    ++ leBytes 2 c.pendingSet.toNat ++ byte c.loop.code ++ byte (bit c.lastFrame.isSome)
    ++ leBytes 4 (c.lastFrame.getD 0).toNat ++ leBytes 2 c.newest.i ++ leBytes 2 c.newest.g ++ leBytes 2 c.newest.l)

/-! ## The snapshot (R13, R194) -/

/-- The 20 bytes of a history entry. -/
def Entry.bytes (e : Entry) : List Byte :=
  leBytes 4 e.frameValue ++ byte (bit e.effective.isNone) ++ byte e.span ++ leBytes 2 e.i ++ leBytes 2 e.g
    ++ leBytes 2 e.l ++ leBytes 6 e.product ++ leBytes 2 0

/-- The effective frame of an armed set. -/
def StagingSet.frame : StagingSet → Frame
  | .armed _ _ _ frame => frame
  | .free | .opened _ _ => 0

/-- The 8 bytes of an armed place: the set id, then its effective frame at +4. -/
def armedBytes (sets : Vector StagingSet 8) (id : SetId) : List Byte :=
  byte id.val ++ leBytes 3 0 ++ leBytes 4 sets[id].frame.toNat

/-- The present marks: last frame, last mean, last compensated mean, last clip count. -/
def Station.presentMarks (c : Station) : Nat :=
  bit c.lastFrame.isSome + 2 * bit c.lastMean.isSome + 4 * bit c.lastCompensated.isSome + 8 * bit c.lastClip.isSome

/-- The 256-byte image of a context (R194): the head to 0x17, the two armed places, the counters at 0x28, five history
places at 0x38, and the profile at 0xA0. -/
def snapshotBytes (id : StationId) (state : StationState) (c : Station) (sets : Vector StagingSet 8) : List Byte :=
  padTo 256
    (byte id.val ++ byte state.code ++ byte c.homeRing.val ++ byte c.noticeRing.val ++ leBytes 2 c.frameLines
      ++ byte c.applyDelay ++ byte c.loop.code ++ byte c.presentMarks ++ byte (bit c.noticeArmed)
      ++ leBytes 2 c.pendingSet.toNat ++ leBytes 4 (c.lastFrame.getD 0).toNat ++ metering c.lastMean
      ++ metering c.lastCompensated ++ metering c.lastClip ++ byte c.history.length ++ byte c.armed.length
      ++ padTo 16 (c.armed.flatMap (armedBytes sets))
      ++ leBytes 4 c.measures.toNat ++ leBytes 4 c.decisions.toNat ++ leBytes 4 c.skipped.toNat ++ leBytes 4 0
      ++ padTo 100 (c.history.flatMap Entry.bytes)
      ++ leBytes 4 0 ++ c.profile.bytes)

end Sys2Proof.Machine
end

