-- ==== Sys2Proof/Machine/Ops.lean ====
section
/-! DEFINITION. The named operations on the state that the commands share. -/
namespace Sys2Proof.Machine

/-! ## One element of a bank -/

/-- Apply a function to every element of a bank. -/
def mapBank {α β : Type} {n : Nat} (f : α → β) (v : Vector α n) : Vector β n := Vector.ofFn fun i => f v[i]

def State.setSlot (s : State) (k : SlotId) (t : Option Task) : State := { s with slots := s.slots.set k t }
def State.setStation (s : State) (id : StationId) (c : Context) : State := { s with stations := s.stations.set id c }
def State.setSet (s : State) (id : SetId) (x : StagingSet) : State := { s with sets := s.sets.set id x }
def State.setWorkRing (s : State) (n : WorkRingId) (w : Option WorkRing) : State :=
  { s with workRings := s.workRings.set n w }
def State.setResultRing (s : State) (n : ResultRingId) (q : Option ResultRing) : State :=
  { s with resultRings := s.resultRings.set n q }

/-- The station a context holds, when it is not FREE. -/
def Context.station : Context → Option Station
  | .free => none
  | .opened c => some c
  | .closing c => some c

/-- The state of a context (R1). -/
def Context.state : Context → StationState
  | .free => .free
  | .opened _ => .opened
  | .closing _ => .closing

/-- Change what a context holds, keeping its state. -/
def Context.update (f : Station → Station) : Context → Context
  | .free => .free
  | .opened c => .opened (f c)
  | .closing c => .closing (f c)

/-- The task table is empty. -/
def State.tableEmpty (s : State) : Bool := s.slots.toList.all (·.isNone)

/-- The number of FREE slots (R127). -/
def State.freeSlots (s : State) : Nat := (s.slots.toList.filter (·.isNone)).length

/-! ## Transfers (R176) -/

/-- A transfer requested now is carried: the link is up and bus mastering enabled; else it ends failed (R176, R195). -/
def State.carries (s : State) : Bool := s.linkIsUp && s.link.busMaster

/-- Ask the link port for a transfer. -/
def State.issue (s : State) (kind : TransferKind) (address : Address) (payload : Payload) : State :=
  { s with transfers := s.transfers ++ [⟨kind, address, payload, !s.carries, !s.carries, s.epoch⟩] }

/-- Part of a write reaches host memory, as the free value leaves open; nothing of one the link port refused (R176,
R195). -/
def State.writePart (s : State) (t : Transfer) : State :=
  match t.payload with
  | .read _ => s
  | .write data =>
    if t.refused then s
    else { s with hostMemory := Memory.writePart s.draws s.hostMemory t.address 0 data, draws := s.draws + 1 }

/-- The whole of a write reaches host memory. -/
def State.writeWhole (s : State) (t : Transfer) : State :=
  match t.payload with
  | .read _ => s
  | .write data => { s with hostMemory := Memory.writeBytes s.hostMemory t.address data }

/-- A transfer is the one an end names: of that kind, requested in that epoch. -/
def Transfer.named (kind : TransferKind) (epoch : Nat) (t : Transfer) : Bool := t.kind == kind && t.epoch == epoch

/-- The oldest transfer in flight of a kind and epoch. -/
def State.inFlight (s : State) (kind : TransferKind) (epoch : Nat) : Option Transfer :=
  s.transfers.find? (Transfer.named kind epoch)

/-- The state without the oldest transfer of a kind and epoch. -/
def State.dropTransfer (s : State) (kind : TransferKind) (epoch : Nat) : State :=
  { s with transfers := s.transfers.eraseP (Transfer.named kind epoch) }

/-- A transfer ends done: a write is in host memory whole. Nothing where no such transfer is in flight, or where it can
only end failed; the end then reaches no block (R176). -/
def State.endDone (s : State) (kind : TransferKind) (epoch : Nat) : Option State :=
  match s.inFlight kind epoch with
  | none => none
  | some t => if t.failing then none else some ((s.dropTransfer kind epoch).writeWhole t)

/-- A transfer ends failed: a write may have passed in part. Nothing where no such transfer is in flight (R176). -/
def State.endFailed (s : State) (kind : TransferKind) (epoch : Nat) : Option State :=
  match s.inFlight kind epoch with
  | none => none
  | some t => some ((s.dropTransfer kind epoch).writePart t)

/-- Abandon the transfers that do not satisfy `keep`: their ends are discarded, also where they arrive once others have
been requested, for those belong to the next epoch; host memory holds what the link port had passed (R14, R145, R169,
R176). -/
def State.abandon (s : State) (keep : Transfer → Bool) : State :=
  let dropped := s.transfers.filter fun t => !keep t
  dropped.foldl State.writePart { s with transfers := s.transfers.filter keep, epoch := s.epoch + 1 }

/-- A transfer is a write-back; a halt does not abandon it (R182). -/
def Transfer.isWriteBack (t : Transfer) : Bool :=
  match t.kind with
  | .writeBack _ => true
  | _ => false

/-- The offset of a place in the write-back area (R189). -/
def placeOffset : Place → Nat
  | .taken ring => 2 * ring.val
  | .produced ring => 0x10 + 2 * ring.val

/-- Issue the 2-byte write-back of one place (R189). -/
def State.writeBack (s : State) (place : Place) (index : RingIndex) : State :=
  s.issue (.writeBack place) (s.writeBackAddress + BitVec.ofNat 64 (placeOffset place)) (.write (leBytes 2 index.toNat))

/-! ## Result rings (R142 to R146) -/

/-- The occupied count (R143). -/
def ResultRing.occupied (q : ResultRing) : Nat := (q.placed - q.released).toNat

/-- The unreserved free count (R143). -/
def ResultRing.unreservedFree (q : ResultRing) : Nat := q.size - q.occupied - q.reserved

/-- The host address of the entry of a ring index (R142). -/
def ResultRing.entryAddress (q : ResultRing) (index : RingIndex) : Address :=
  q.base + BitVec.ofNat 64 (32 * (index.toNat % q.size))

/-- The host address of the record of a ring index (R118). -/
def WorkRing.recordAddress (w : WorkRing) (index : RingIndex) : Address :=
  w.base + BitVec.ofNat 64 (64 * (index.toNat % w.size))

/-- A fresh ACTIVE result ring: indexes and counts 0 (R142, R149). -/
def ResultRing.fresh (base : Address) (size threshold : Nat) : ResultRing :=
  { base, size, threshold, placed := 0, produced := 0, released := 0, reserved := 0, unsignalled := 0 }

/-- A fresh ACTIVE work ring: indexes and in-flight count 0 (R119, R135). -/
def WorkRing.fresh (base : Address) (size : Nat) (resultRing : ResultRingId) (weight : Option Nat) : WorkRing :=
  { state := .active, base, size, resultRing, weight, posted := 0, taken := 0, written := 0, inFlight := 0 }

/-- The ring index of a result write on a ring, if the transfer is one. -/
def Transfer.resultIndex (ring : ResultRingId) (t : Transfer) : Option RingIndex :=
  match t.kind with
  | .completion _ r index => if r = ring then some index else none
  | .notice _ r index => if r = ring then some index else none
  | _ => none

/-- The produced index after a write ends: the index of the oldest record of the ring whose write is still in flight, or
the placed index (R146). -/
def State.producedNow (s : State) (ring : ResultRingId) (q : ResultRing) : RingIndex :=
  (s.transfers.findSome? (Transfer.resultIndex ring)).getD q.placed

/-- A RESULTn cause is set and the ring's count made 0 when its unsignalled count satisfies `due` (R157, R158). -/
def State.announce (s : State) (ring : ResultRingId) (due : ResultRing → Bool) : State :=
  match s.resultRings[ring] with
  | none => s
  | some q =>
    if due q then (s.setResultRing ring (some { q with unsignalled := 0 })).setCause (.result ring) else s

/-- A record write of a ring has ended done: the produced index, the unsignalled count with its threshold, and the
write-back of the produced index (R146, R157). -/
def State.recordProduced (s : State) (ring : ResultRingId) : State :=
  match s.resultRings[ring] with
  | none => s
  | some q =>
    let q := { q with produced := s.producedNow ring q, unsignalled := q.unsignalled + 1 }
    ((s.setResultRing ring (some q)).announce ring fun q => decide (q.threshold ≤ q.unsignalled)).writeBack
      (.produced ring) q.produced

/-- Every ring with uncounted records is announced when the task table is empty (R158). -/
def State.announceAll (s : State) : State :=
  (List.finRange 4).foldl (fun s ring => s.announce ring fun q => decide (0 < q.unsignalled)) s

/-! ## Notices (R154 to R156) -/

/-- A station is a candidate for emission: OPEN, pending set non-empty, notice armed (R154). -/
def Context.candidate : Context → Bool
  | .opened c => decide (c.pendingSet ≠ 0) && c.noticeArmed
  | .free | .closing _ => false

/-- Notices are emitted in this controller state (R156). -/
def State.emits (s : State) : Bool :=
  match s.controller with
  | .running | .quiescing => true
  | .off | .starting | .quiesced | .halted => false

/-- Emit the NOTICE of a station where every condition of R154 holds, as the one event of R155; else change nothing. -/
def State.emitNotice (s : State) (id : StationId) : State :=
  match s.stations[id] with
  | .free | .closing _ => s
  | .opened c =>
    match s.resultRings[c.noticeRing] with
    | none => s
    | some q =>
      if s.emits && (Context.opened c).candidate && decide (1 ≤ q.unreservedFree) then
        ((s.setStation id (.opened { c with pendingSet := 0, noticeArmed := false, noticeInFlight := true })).setResultRing
            c.noticeRing (some { q with placed := q.placed + 1 })).issue
          (.notice id c.noticeRing q.placed) (q.entryAddress q.placed) (.write (noticeBytes id c))
      else s

/-- The notice ring of an OPEN station is this ring. -/
def Context.noticesOn (ring : ResultRingId) : Context → Bool
  | .opened c => c.noticeRing == ring
  | .free | .closing _ => false

/-- The slot-offer rule for the notices of one ring: candidates in ascending station id (R148). -/
def State.offerSlots (s : State) (ring : ResultRingId) : State :=
  (List.finRange 32).foldl (fun s id => if s.stations[id].noticesOn ring then s.emitNotice id else s) s

/-! ## Tasks (R127 to R133) -/

/-- Task u was taken before task t of the same ring: the order of their ring indexes (R127). -/
def Task.before (u t : Task) : Bool :=
  decide (u.ring = t.ring) && decide (1 ≤ (t.index - u.index).toNat) && decide ((t.index - u.index).toNat < 2 ^ 15)

/-- A task has executed: its slot is in DRAIN_WAIT or WRITING. -/
def Task.executed (t : Task) : Bool :=
  match t.phase with
  | .drainWait _ _ | .writing _ _ _ => true
  | .reading | .fetching _ | .queued _ => false

/-- Every task of the table taken earlier from the same ring satisfies `p`. -/
def State.earlierAll (s : State) (t : Task) (p : Task → Bool) : Bool :=
  s.slots.toList.all fun o =>
    match o with
    | none => true
    | some u => !u.before t || p u

/-- The task of a slot that can execute: QUEUED, every earlier task of its ring executed (R129). The record is absent
under the unreadable mark. -/
def State.ready (s : State) (k : SlotId) : Option (Task × Option Block64) :=
  match s.slots[k] with
  | none => none
  | some t =>
    match t.phase with
    | .queued r => if s.earlierAll t Task.executed then some (t, r) else none
    | .reading | .fetching _ | .drainWait _ _ | .writing _ _ _ => none

/-- Execute the task of a slot when its record is of the kind: the command of an execution row changes nothing where the
slot's task cannot execute or carries another kind (log entry 1). -/
def State.executing (s : State) (k : SlotId) (kind : Nat) (act : Task → Block64 → State) : State :=
  match s.ready k with
  | some (t, some r) => if recordKind r = kind then act t r else s
  | _ => s

/-- The completion of a task with a record: the record's tag and station, the ring it was taken from (R151). -/
def completionOf (t : Task) (r : Block64) (status : Status) (body : Body) : Completion :=
  { status, tag := recordTag r, ring := t.ring, station := stationByte r, body }

/-- The slot enters WRITING with its completion (R131). -/
def State.answer (s : State) (k : SlotId) (t : Task) (r : Block64) (status : Status) (body : Body) : State :=
  s.setSlot k (some { t with phase := .writing (some r) (completionOf t r status body) none })

/-! ## Drains (R9, R10, R133, R138) -/

/-- Free the armed sets of a list (R10, R114). -/
def freeSets (ids : List SetId) (sets : Vector StagingSet 8) : Vector StagingSet 8 :=
  ids.foldl (fun (acc : Vector StagingSet 8) (id : SetId) => acc.set id .free) sets

/-- The close drain of a slot ends when its drain set is empty and no NOTICE write of the station is in flight: the armed
sets are freed, the context becomes FREE, and the completion is formed (R9, R10). -/
def State.endCloseDrain (s : State) (k : SlotId) : State :=
  match s.slots[k] with
  | none => s
  | some t =>
    match t.phase with
    | .drainWait r (.close id []) =>
      match s.stations[id] with
      | .closing c =>
        if c.noticeInFlight then s
        else
          (({ s with sets := freeSets c.armed s.sets } : State).setStation id .free).answer k t r .ok
            (.closeStation c.armed.length c.measures c.decisions c.skipped)
      | .free | .opened _ => s
    | _ => s

/-- The delete drain of a slot ends when the DRAINING ring's in-flight count is 0: the abandoned records are counted, the
OPEN sets owned by the ring are freed, and the ring becomes ABSENT (R138). -/
def State.endDeleteDrain (s : State) (k : SlotId) : State :=
  match s.slots[k] with
  | none => s
  | some t =>
    match t.phase with
    | .drainWait r (.delete ring) =>
      match s.workRings[ring] with
      | none => s
      | some w =>
        if w.inFlight = 0 then
          let owned := s.sets.toList.filter (StagingSet.openOwnedBy ring)
          (({ s with sets := mapBank (fun x => if x.openOwnedBy ring then .free else x) s.sets } : State).setWorkRing
              ring none).answer k t r .ok (.deleteWorkRing ring.val owned.length (w.posted - w.taken).toNat)
        else s
    | _ => s

/-- A drain ends at the first event at which its condition holds: every event that can satisfy one settles the drains
(R9, R133). -/
def State.settleDrains (s : State) : State :=
  (List.finRange 8).foldl (fun s k => (s.endCloseDrain k).endDeleteDrain k) s

/-- A slot leaves every recorded drain set when its task leaves the table (R9). -/
def Task.forgetSlot (k : SlotId) (t : Task) : Task :=
  match t.phase with
  | .drainWait r (.close id recorded) => { t with phase := .drainWait r (.close id (recorded.filter (· != k))) }
  | _ => t

/-- A slot becomes FREE at the end of its result write: the ring's in-flight count falls and recorded drain sets lose the
slot (R9, R131, R132). -/
def State.freeSlot (s : State) (k : SlotId) : State :=
  match s.slots[k] with
  | none => s
  | some t =>
    let s := { s with slots := mapBank (Option.map (Task.forgetSlot k)) (s.slots.set k none) }
    match s.workRings[t.ring] with
    | none => s
    | some w => s.setWorkRing t.ring (some { w with inFlight := w.inFlight - 1 })

/-! ## Halt, teardown and start-up (R139, R140, R161, R167, R169) -/

/-- The controller becomes QUIESCED and sets its cause (R165). -/
def State.becomeQuiesced (s : State) : State :=
  ({ s with controller := .quiesced } : State).setCause .quiesced

/-- A halt request: the effects of R167 in STARTING, RUNNING, QUIESCING and QUIESCED; nothing in HALTED (R168). -/
def State.halt (s : State) (why : HaltCause) : State :=
  match s.controller with
  | .off | .halted => s
  | .starting | .running | .quiescing | .quiesced =>
    ({ s.abandon Transfer.isWriteBack with
        controller := .halted
        haltCause := why
        heldSetup := none
        slots := Vector.replicate 8 none
        workRings := mapBank (Option.map fun w => { w with inFlight := 0 }) s.workRings
        resultRings := mapBank (Option.map fun q => { q with reserved := 0 }) s.resultRings } : State).setCause .halted

/-- Teardown to OFF: every transfer abandoned, every block at its reset value; CTRL.QUIESCE and the other registers are
the caller's (R2, R100, R139, R142, R169). -/
def State.teardown (s : State) : State :=
  { s.abandon (fun _ => false) with
    controller := .off
    heldSetup := none
    workRings := Vector.replicate 8 none
    slots := Vector.replicate 8 none
    pointer := 1
    runCounter := 0
    stations := Vector.replicate 32 .free
    sets := Vector.replicate 8 .free
    resultRings := Vector.replicate 4 none }

/-- The setup address SETUP_HI × 2^32 + SETUP_LO (R187). -/
def State.setupAddress (s : State) : Address := s.setupHi ++ s.setupLo

/-- Start-up from OFF (R161). -/
def State.beginStartUp (s : State) : State :=
  let s := { s with controller := .starting, haltCause := .none }
  if s.setupAddress.toNat % 64 = 0 then s.issue .setupRead s.setupAddress (.read 64)
  else s.halt .setupInvalid

/-- QUIESCE goes from 0 to 1 in RUNNING (R165). -/
def State.beginQuiesce (s : State) : State :=
  if s.tableEmpty then s.becomeQuiesced else { s with controller := .quiescing }

/-- The controller returns to RUNNING: waiting candidates are emitted ring by ring (R156, R166). -/
def State.resume (s : State) : State :=
  (List.finRange 4).foldl State.offerSlots { s with controller := .running }

end Sys2Proof.Machine
end

