-- ==== Sys2Proof/Machine/Home.lean ====
section
/-! DEFINITION. The home-ring commands: MEASURE, FREEZE, THAW, RESEEK, SET_ACTUATORS and ACK_NOTICE (chapters 1 and 3). -/
namespace Sys2Proof.Machine

/-- The check of a home-ring command after its kind code is known: placement, fields, existence, ownership, state (R3). It
answers the status of the first failing check, or the station. -/
def State.homeCheck (s : State) (t : Task) (r : Block64) (fields : Bool) : Except Status (StationId × Station) :=
  if t.ring = 0 then .error .wrongRing
  else
    match idOf 32 (recordByte8 r) with
    | none => .error .badField
    | some id =>
      if !fields then .error .badField
      else
        match s.stations[id] with
        | .free => .error .noStation
        | .opened c => if c.homeRing ≠ t.ring then .error .wrongRing else .ok (id, c)
        | .closing c => if c.homeRing ≠ t.ring then .error .wrongRing else .error .stationClosing

/-- The body of a home-ring command that failed a check: 0xFFFF in the metering contents, all else 0 (R58, R192). -/
def failedHomeBody : Body := .home .none false none none none none

/-- The loop state and newest entry as they stand (R58, R94). -/
def Station.report (c : Station) : LoopReport := ⟨c.loop, c.newest⟩

/-- A home-ring command other than MEASURE: check, change the station, answer with the loop state and newest entry. -/
def State.homeCommand (s : State) (k : SlotId) (kind : Nat) (fields : Block64 → Bool)
    (act : Block64 → Station → Station) : State :=
  s.executing k kind fun t r =>
    match s.homeCheck t r (fields r) with
    | .error status => s.answer k t r status failedHomeBody
    | .ok (id, c) =>
      (s.setStation id (.opened (act r c))).answer k t r .ok
        (.home .none false none none none (some (act r c).report))

/-- FREEZE's change (R15). -/
def Station.freeze (c : Station) : Station := { c with loop := .frozen }

/-- THAW's change: FROZEN to SEEKING, raising SEEK; from any other state nothing (R16). -/
def Station.thaw (c : Station) : Station :=
  if c.loop = .frozen then ({ c with loop := .seeking } : Station).raise .seek else c

/-- RESEEK's change: IDLE, last frame absent, history cut (R17). -/
def Station.reseek (c : Station) : Station := { c.cut with loop := .idle, lastFrame := none }

/-- SET_ACTUATORS' change: the history becomes one treated entry at the named frame; the loop state SEEKING, with SEEK
raised on entering it, unless FROZEN (R18, R74). -/
def Station.setActuators (effective : Frame) (i g l : Nat) (c : Station) : Station :=
  let c := { c with older := [], newest := entryOf c.frameLines (some effective) (treat c.profile c.frameLines i g l) }
  if c.loop = .frozen then c else enter .seeking c

/-- ACK_NOTICE's change (R19). -/
def Station.ackNotice (c : Station) : Station := { c with noticeArmed := true }

/-- The grid source of a MEASURE (R24). -/
def gridSource (r : Block64) (status : GridStatus) : GridSource where
  columns := recordByte9 r
  rows := recordByteA r
  synthetic := if recordSynth r then some (recordByteB r == 1, recordBase r, recordSlope r) else none
  status := status

/-- The completion body of an evaluation (R58). -/
def Evaluation.body (e : Evaluation) : Body :=
  .home e.outcome e.veto e.mean e.compensated e.clip (some e.station.report)

/-- MEASURE: one evaluation event in fourteen stages (R38). -/
def execMeasure (k : SlotId) (s : State) : Answer :=
  .next <| s.executing k Kind.measure fun t r =>
    match s.homeCheck t r (measureAccepted r) with
    | .error status => s.answer k t r status failedHomeBody
    | .ok (id, c) =>
      let e := evaluate (recordFrame r) (gridSource r t.grid) c s.sets
      (({ s with sets := e.sets } : State).setStation id (.opened e.station)).answer k t r e.status e.body

/-- FREEZE (R15). -/
def execFreeze (k : SlotId) (s : State) : Answer :=
  .next <| s.homeCommand k Kind.freeze (fun _ => true) fun _ c => c.freeze

/-- THAW (R16). -/
def execThaw (k : SlotId) (s : State) : Answer :=
  .next <| s.homeCommand k Kind.thaw (fun _ => true) fun _ c => c.thaw

/-- RESEEK (R17). -/
def execReseek (k : SlotId) (s : State) : Answer :=
  .next <| s.homeCommand k Kind.reseek (fun _ => true) fun _ c => c.reseek

/-- SET_ACTUATORS (R18). -/
def execSetActuators (k : SlotId) (s : State) : Answer :=
  .next <| s.homeCommand k Kind.setActuators actuatorsAccepted fun r c =>
    c.setActuators (recordFrame r) (recordI r) (recordG r) (recordL r)

/-- ACK_NOTICE (R19). -/
def execAckNotice (k : SlotId) (s : State) : Answer :=
  .next <| s.homeCommand k Kind.ackNotice (fun _ => true) fun _ c => c.ackNotice

end Sys2Proof.Machine
end

