-- ==== Sys2Proof/Machine/Link.lean ====
section
/-! DEFINITION. The ends of transfers and the events of the host link (chapters 9 and 10, R195). An end of a transfer that
is not in flight, or a done end of one that can only fail, reaches no block and changes nothing (R176). -/
namespace Sys2Proof.Machine

/-! ## Record reads (R126, R128, R177) -/

/-- The ring and index of a record read. -/
def Transfer.recordIndex (ring : WorkRingId) (t : Transfer) : Option RingIndex :=
  match t.kind with
  | .recordRead _ r index => if r = ring then some index else none
  | _ => none

/-- The written taken index after a record read of a ring has ended, and its write-back: the index of the oldest record
whose read is still in flight, or the taken index (R126). -/
def State.advanceWritten (s : State) (ring : WorkRingId) : State :=
  match s.workRings[ring] with
  | none => s
  | some w =>
    let written := (s.transfers.findSome? (Transfer.recordIndex ring)).getD w.taken
    (s.setWorkRing ring (some { w with written })).writeBack (.taken ring) written

/-- The slot of a record that has arrived enters FETCHING with its grid read issued, or QUEUED (R26, R128). -/
def State.holdRecord (s : State) (k : SlotId) (t : Task) (r : Block64) : State :=
  if fetchesGrid t.ring r then
    (s.setSlot k (some { t with phase := .fetching r, grid := .inFlight })).issue (.gridRead k) (recordAddress r)
      (.read (4 * recordByte9 r * recordByteA r))
  else s.setSlot k (some { t with phase := .queued (some r) })

/-- RECORD_READ_DONE (R126, R128). -/
def execRecordReadDone (k : SlotId) (r : Block64) (s : State) (epoch : Nat := 0) : Answer :=
  .next <|
    match s.slots[k] with
    | none => s
    | some t =>
      match t.phase with
      | .reading =>
        match s.endDone (.recordRead k t.ring t.index) epoch with
        | none => s
        | some s => (s.holdRecord k t r).advanceWritten t.ring
      | .fetching _ | .queued _ | .drainWait _ _ | .writing _ _ _ => s

/-- An ACTIVE ring becomes FAULTED; any other keeps its state (R177). -/
def WorkRing.fault (w : WorkRing) : WorkRing :=
  match w.state with
  | .active => { w with state := .faulted }
  | .draining | .faulted => w

/-- RECORD_READ_FAULT (R128, R177). -/
def execRecordReadFault (k : SlotId) (s : State) (epoch : Nat := 0) : Answer :=
  .next <|
    match s.slots[k] with
    | none => s
    | some t =>
      match t.phase with
      | .reading =>
        match s.endFailed (.recordRead k t.ring t.index) epoch with
        | none => s
        | some s =>
          let s := s.setSlot k (some { t with phase := .queued none })
          let s :=
            match s.workRings[t.ring] with
            | none => s
            | some w => s.setWorkRing t.ring (some w.fault)
          s.advanceWritten t.ring
      | .fetching _ | .queued _ | .drainWait _ _ | .writing _ _ _ => s

/-! ## Grid reads (R27, R28, R179) -/

/-- GRID_READ_DONE: the buffer holds the cells, the status is HELD and the slot QUEUED. The data of the end is the 4 × C × R
bytes asked for; another length is no end of this read (R27, log entry 1). -/
def execGridReadDone (k : SlotId) (data : List Byte) (s : State) (epoch : Nat := 0) : Answer :=
  .next <|
    match s.slots[k] with
    | none => s
    | some t =>
      match t.phase with
      | .fetching r =>
        match s.endDone (.gridRead k) epoch with
        | none => s
        | some s' =>
          if data.length = 4 * recordByte9 r * recordByteA r then
            s'.setSlot k (some { t with phase := .queued (some r), grid := .held (cellsOf data) })
          else s
      | .reading | .queued _ | .drainWait _ _ | .writing _ _ _ => s

/-- GRID_READ_FAULT: the status is FAILED and the slot QUEUED (R28, R179). -/
def execGridReadFault (k : SlotId) (s : State) (epoch : Nat := 0) : Answer :=
  .next <|
    match s.slots[k] with
    | none => s
    | some t =>
      match t.phase with
      | .fetching r =>
        match s.endFailed (.gridRead k) epoch with
        | none => s
        | some s => s.setSlot k (some { t with phase := .queued (some r), grid := .failed })
      | .reading | .queued _ | .drainWait _ _ | .writing _ _ _ => s

/-! ## Snapshot writes (R14, R180) -/

/-- SNAPSHOT_WRITE_DONE: the image is in the buffer, and the completion write may begin in ring order (R14). -/
def execSnapshotWriteDone (k : SlotId) (s : State) (epoch : Nat := 0) : Answer :=
  .next <|
    match s.endDone (.snapshot k) epoch with
    | none => s
    | some s => s

/-- The completion's status becomes BUFFER_FAULT (R152, R180). -/
def Task.bufferFault (t : Task) : Task :=
  match t.phase with
  | .writing r c image => { t with phase := .writing r { c with status := .bufferFault } image }
  | .reading | .fetching _ | .queued _ | .drainWait _ _ => t

/-- SNAPSHOT_WRITE_FAULT (R14, R180). -/
def execSnapshotWriteFault (k : SlotId) (s : State) (epoch : Nat := 0) : Answer :=
  .next <|
    match s.endFailed (.snapshot k) epoch with
    | none => s
    | some s => s.setSlot k (s.slots[k].map Task.bufferFault)

/-! ## Result writes (R146, R157, R158, R165, R181) -/

/-- The result write in flight of a ring and index, requested in an epoch. -/
def State.resultInFlight (s : State) (ring : ResultRingId) (index : RingIndex) (epoch : Nat) : Option Transfer :=
  s.transfers.find? fun t => t.resultIndex ring == some index && t.epoch == epoch

/-- The table has emptied at the end of a completion's write: rings with uncounted records are announced, and in QUIESCING
the controller becomes QUIESCED (R158, R165). -/
def State.afterLastTask (s : State) : State :=
  if s.tableEmpty then
    let s := s.announceAll
    if s.controller = .quiescing then s.becomeQuiesced else s
  else s

/-- Another NOTICE write of a station is in flight. -/
def State.noticePending (s : State) (id : StationId) : Bool :=
  s.transfers.any fun t =>
    match t.kind with
    | .notice j _ _ => j == id
    | _ => false

/-- The write of a NOTICE has ended: the mark is cleared at the last of the station's writes, and with the table empty its
ring is announced (R155, R158). -/
def State.noticeWritten (s : State) (id : StationId) (ring : ResultRingId) : State :=
  let s := s.setStation id (s.stations[id].update fun c => { c with noticeInFlight := s.noticePending id })
  if s.tableEmpty then s.announce ring fun q => decide (0 < q.unsignalled) else s

/-- RESULT_WRITE_DONE: the record is in host memory; the produced index, its write-back, the unsignalled count; a
completion's slot becomes FREE; drains that this satisfies end (R9, R131, R133, R146, R157, R158, R165). -/
def execResultWriteDone (ring : ResultRingId) (index : RingIndex) (s : State) (epoch : Nat := 0) : Answer :=
  .next <|
    match s.resultInFlight ring index epoch with
    | none => s
    | some t =>
      match s.endDone t.kind epoch with
      | none => s
      | some s =>
        let s := s.recordProduced ring
        match t.kind with
        | .completion k _ _ => (s.freeSlot k).afterLastTask.settleDrains
        | .notice id _ _ => (s.noticeWritten id ring).settleDrains
        | _ => s

/-- RESULT_WRITE_FAULT: a halt request; the produced index does not move (R181). -/
def execResultWriteFault (ring : ResultRingId) (index : RingIndex) (s : State) (epoch : Nat := 0) : Answer :=
  .next <|
    match s.resultInFlight ring index epoch with
    | none => s
    | some t =>
      match s.endFailed t.kind epoch with
      | none => s
      | some s => s.halt .resultWriteFault

/-! ## Write-backs (R182) -/

/-- WRITEBACK_DONE: the place holds the value of the oldest write-back of it in flight (R126, R182, R189). -/
def execWritebackDone (place : Place) (s : State) (epoch : Nat := 0) : Answer :=
  .next <|
    match s.endDone (.writeBack place) epoch with
    | none => s
    | some s => s

/-- WRITEBACK_FAULT: a halt request, which HALTED ignores (R168, R182). -/
def execWritebackFault (place : Place) (s : State) (epoch : Nat := 0) : Answer :=
  .next <|
    match s.endFailed (.writeBack place) epoch with
    | none => s
    | some s => s.halt .writebackFault

/-! ## Start-up (R162, R163, R183) -/

/-- SETUP_READ_DONE: an accepted block is held and the zeroing write issued; else a halt with SETUP_INVALID (R162). -/
def execSetupReadDone (block : Block64) (s : State) (epoch : Nat := 0) : Answer :=
  .next <|
    match s.controller, s.endDone .setupRead epoch with
    | .starting, some s =>
      if setupAccepted block then
        ({ s with heldSetup := some (setupOf block) } : State).issue .zeroing (setupOf block).writeBack
          (.write (List.replicate 32 0))
      else s.halt .setupInvalid
    | _, _ => s

/-- SETUP_READ_FAULT (R162, R183). -/
def execSetupReadFault (s : State) (epoch : Nat := 0) : Answer :=
  .next <|
    match s.endFailed .setupRead epoch with
    | none => s
    | some s => s.halt .setupReadFault

/-- The end of start-up (R163). -/
def State.completeStartUp (s : State) (u : Setup) : State :=
  let s := { s with
    heldSetup := none
    writeBackAddress := u.writeBack
    workRings := s.workRings.set 0 (some (WorkRing.fresh u.controlBase u.controlSize 0 none))
    resultRings := s.resultRings.set 0 (some (ResultRing.fresh u.resultBase u.resultSize u.resultThreshold))
    controller := if s.quiesceBit then .quiesced else .running }
  let s := s.setCause .ready
  if s.quiesceBit then s.setCause .quiesced else s

/-- WRITEBACK_ZEROING_DONE (R163). -/
def execWritebackZeroingDone (s : State) (epoch : Nat := 0) : Answer :=
  .next <|
    match s.controller, s.endDone .zeroing epoch, s.heldSetup with
    | .starting, some s', some u => s'.completeStartUp u
    | _, _, _ => s

/-- WRITEBACK_ZEROING_FAULT (R163, R183). -/
def execWritebackZeroingFault (s : State) (epoch : Nat := 0) : Answer :=
  .next <|
    match s.endFailed .zeroing epoch with
    | none => s
    | some s => s.halt .writebackFault

/-! ## The link (R176, R195) -/

/-- A transfer that can only end failed from now on. -/
def Transfer.doom (t : Transfer) : Transfer := { t with failing := true }

/-- LINK_DOWN: every transfer in flight, and every one requested while the link is down, can only end failed; no register
changes (R195). -/
def execLinkDown (s : State) : Answer :=
  .next { s with linkIsUp := false, transfers := s.transfers.map Transfer.doom }

/-- LINK_UP: transfers requested from then on are carried (R195). -/
def execLinkUp (s : State) : Answer := .next { s with linkIsUp := true }

/-- A transfer is the read named, requested in the epoch. -/
def Transfer.isRead (read : ReadId) (epoch : Nat) (t : Transfer) : Bool :=
  (match read, t.kind with
    | .setup, .setupRead => true
    | .record k, .recordRead j _ _ => j == k
    | .grid k, .gridRead j => j == k
    | _, _ => false) && t.epoch == epoch

/-- COMPLETION_TIMEOUT: a part of the read was not answered within 50 ms, so it can only end failed (R176). -/
def execCompletionTimeout (read : ReadId) (s : State) (epoch : Nat := 0) : Answer :=
  .next { s with transfers := s.transfers.map fun t => if t.isRead read epoch then t.doom else t }

/-- CONFIGURATION_SPACE_WRITE: the enables, and the message's address and data, as written (R195). -/
def execConfigurationSpaceWrite (config : LinkConfig) (s : State) : Answer := .next { s with link := config }

end Sys2Proof.Machine
end

