-- ==== Sys2Proof/Machine/Registers.lean ====
section
/-! DEFINITION. The register window: CTRL, POST, CAUSE, MASK and the setup registers as written (R160, R187, R188), the
resets (R169 to R171), and what a register read returns. -/
namespace Sys2Proof.Machine

/-- A register write reaches the window while the endpoint's memory-space enable is 1 (R195). -/
def State.reached (s : State) (act : State → State) : State := if s.link.memorySpace then act s else s

/-! ## CTRL -/

/-- Soft reset: teardown; CTRL, CAUSE, MASK 0; halt cause and last rejection NONE; reset cause SOFT (R170). -/
def State.softReset (s : State) : State :=
  { s.teardown with
    quiesceBit := false, cause := 0, mask := 0, haltCause := .none, rejection := .nothing, resetCause := .soft }

/-- Power-on reset and pin reset (R171). -/
def State.hardReset (s : State) (why : ResetCause) : State :=
  { s.teardown with
    quiesceBit := false, setupLo := 0, setupHi := 0, cause := 0, mask := 0, haltCause := .none, rejection := .nothing,
    resetCause := why, writeBackAddress := 0 }

/-- A write with ENABLE 1 after its QUIESCE value is stored; `before` is the value stored before (R160, R165, R166). -/
def State.enabledWrite (s : State) (before : Bool) : State :=
  match s.controller with
  | .off => s.beginStartUp
  | .running => if !before && s.quiesceBit then s.beginQuiesce else s
  | .quiescing | .quiesced => if before && !s.quiesceBit then s.resume else s
  | .starting | .halted => s

/-- A write to CTRL, acted on by its value and the controller state (R160). -/
def State.writeCtrl (s : State) (value : Register) : State :=
  if ctrlSoftReset value then s.softReset
  else
    let t := { s with quiesceBit := ctrlQuiesce value }
    if ctrlEnable value then t.enabledWrite s.quiesceBit
    else if s.controller = .off then t else t.teardown

/-! ## POST -/

/-- Reject a POST write: cause POST_REJECT and the last rejection as written (R174). -/
def State.reject (s : State) (value : Register) (reason : RejectReason) : State :=
  ({ s with rejection := ⟨postOperation value, reason, postRing value⟩ } : State).setCause .postReject

/-- The check of a POST_WORK against a work ring (R120). -/
def WorkRing.postCheck (w : WorkRing) (new : RingIndex) : Option RejectReason :=
  if w.size < (new - w.taken).toNat then some .overrun
  else if w.size < (new - w.posted).toNat then some .regress
  else none

/-- A POST_WORK write (R120, R121). -/
def State.postWork (s : State) (value : Register) : State :=
  match idOf 8 (postRing value).toNat with
  | none => s.reject value .noRing
  | some ring =>
    match s.workRings[ring] with
    | none => s.reject value .noRing
    | some w =>
      match w.postCheck (postIndex value) with
      | some reason => s.reject value reason
      | none => s.setWorkRing ring (some { w with posted := postIndex value })

/-- The check of a RELEASE_RESULT against a result ring (R147). -/
def ResultRing.releaseCheck (q : ResultRing) (new : RingIndex) : Option RejectReason :=
  if 1 ≤ (new - q.produced).toNat ∧ (new - q.produced).toNat ≤ q.size then some .overrun
  else if (q.produced - q.released).toNat < (new - q.released).toNat then some .regress
  else none

/-- A RELEASE_RESULT write: the released index moves and the freed slots are offered to candidate notices (R147, R148); an
index equal to the released one changes nothing. -/
def State.releaseResult (s : State) (value : Register) : State :=
  match idOf 4 (postRing value).toNat with
  | none => s.reject value .noRing
  | some ring =>
    match s.resultRings[ring] with
    | none => s.reject value .noRing
    | some q =>
      match q.releaseCheck (postIndex value) with
      | some reason => s.reject value reason
      | none =>
        if postIndex value = q.released then s
        else (s.setResultRing ring (some { q with released := postIndex value })).offerSlots ring

/-- A write to POST, decoded from its operation field (R188). -/
def State.writePost (s : State) (value : Register) : State :=
  if postOperation value = 1#4 then s.postWork value
  else if postOperation value = 2#4 then s.releaseResult value
  else s.reject value .badOperation

/-! ## The window -/

/-- A full, aligned write at an offset of the window (R187). -/
def State.writeRegister (s : State) (offset : BitVec 12) (value : Register) : State :=
  match offset.toNat with
  | 0x04 => s.writeCtrl value
  | 0x0C => { s with setupLo := value }
  | 0x10 => { s with setupHi := value }
  | 0x14 => s.writePost value
  | 0x18 => s.clearCauses value
  | 0x1C => s.writeMask value
  | _ => s

/-- The code of the controller state in STATUS (R187). -/
def ControllerState.code : ControllerState → Nat
  | .off => 0
  | .starting => 1
  | .running => 2
  | .quiescing => 3
  | .quiesced => 4
  | .halted => 5

/-- The code of the reset cause in STATUS (R187). -/
def ResetCause.code : ResetCause → Nat
  | .powerOn => 0
  | .pin => 1
  | .soft => 2

/-- The code of the halt cause in STATUS (R187). -/
def HaltCause.code : HaltCause → Nat
  | .none => 0
  | .setupInvalid => 1
  | .setupReadFault => 2
  | .writebackFault => 3
  | .resultWriteFault => 4

/-- The code of a rejection reason in STATUS (R187). -/
def RejectReason.code : RejectReason → Nat
  | .none => 0
  | .noRing => 1
  | .overrun => 2
  | .regress => 3
  | .badOperation => 4

/-- CTRL.ENABLE holds 1 exactly while the state is not OFF (R159). -/
def State.enableBit (s : State) : Bool := decide (s.controller ≠ .off)

/-- CTRL as read (R160): SOFT_RESET reads 0. -/
def State.readCtrl (s : State) : Register := BitVec.ofNat 32 (bit s.enableBit + 2 * bit s.quiesceBit)

/-- STATUS as read (R175, R187). -/
def State.readStatus (s : State) : Register :=
  BitVec.ofNat 32
    (s.controller.code + 2 ^ 4 * s.resetCause.code + 2 ^ 8 * s.haltCause.code + 2 ^ 16 * s.rejection.operation.toNat
      + 2 ^ 20 * s.rejection.reason.code + 2 ^ 24 * s.rejection.ringId.toNat)

/-- What the 32-bit register of the window that holds the byte at an offset reads as (R187): POST, and every register
from 0x20 up, as 0. Reads change no state. -/
def State.readRegister (s : State) (offset : BitVec 12) : Register :=
  match offset.toNat / 4 with
  | 0 => Config.ident
  | 1 => s.readCtrl
  | 2 => s.readStatus
  | 3 => s.setupLo
  | 4 => s.setupHi
  | 6 => s.cause.setWidth 32
  | 7 => s.mask.setWidth 32
  | _ => 0

/-- What a read of `bytes` bytes at an offset of the window returns: the addressed bytes of the register, least significant
first, and 0 for every byte from 0x20 up (R187). It returns nothing while the memory-space enable is 0, when no read
reaches the window (R195). DESIGN CHOICE, safe (log entry 23): nor does a read below 0x20 that is not within one register
(one running past a register's end, so also a 32-bit read at an offset that is not a multiple of 4 and any of more than 32
bits) or one past the window's end, whose value the manual does not state. -/
def State.readBytes (s : State) (offset : BitVec 12) (bytes : Nat) : Option (List Byte) :=
  if s.link.memorySpace = false ∨ bytes = 0 then none
  else if 0x20 ≤ offset.toNat ∧ offset.toNat + bytes ≤ 0x1000 then some (List.replicate bytes 0)
  else if offset.toNat % 4 + bytes ≤ 4 then
    some (((leBytes 4 (s.readRegister offset).toNat).drop (offset.toNat % 4)).take bytes)
  else none

/-! ## The commands -/

/-- SOFT_RESET: a CTRL write (R160, R170). -/
def execSoftReset (value : Register) (s : State) : Answer := .next <| s.reached (·.writeCtrl value)

/-- START_UP: a CTRL write (R160, R161). -/
def execStartUp (value : Register) (s : State) : Answer := .next <| s.reached (·.writeCtrl value)

/-- ENABLE_OFF: a CTRL write (R160, R169). -/
def execEnableOff (value : Register) (s : State) : Answer := .next <| s.reached (·.writeCtrl value)

/-- QUIESCE: a CTRL write (R160, R165). -/
def execQuiesce (value : Register) (s : State) : Answer := .next <| s.reached (·.writeCtrl value)

/-- QUIESCE_CLEAR: a CTRL write (R160, R166). -/
def execQuiesceClear (value : Register) (s : State) : Answer := .next <| s.reached (·.writeCtrl value)

/-- POST_WORK: a POST write (R120, R188). -/
def execPostWork (value : Register) (s : State) : Answer := .next <| s.reached (·.writePost value)

/-- RELEASE_RESULT: a POST write (R147, R188). -/
def execReleaseResult (value : Register) (s : State) : Answer := .next <| s.reached (·.writePost value)

/-- BAD_OPERATION: a POST write (R174, R188). -/
def execBadOperation (value : Register) (s : State) : Answer := .next <| s.reached (·.writePost value)

/-- CAUSE_CLEAR: a write to CAUSE (R172). -/
def execCauseClear (value : Register) (s : State) : Answer := .next <| s.reached (·.clearCauses value)

/-- MASK_WRITE: a write to MASK (R173). -/
def execMaskWrite (value : Register) (s : State) : Answer := .next <| s.reached (·.writeMask value)

/-- REGISTER_WRITE: any write to the window; one of fewer than 32 bits or at an offset that is not a multiple of 4 is
ignored in full (R187). DESIGN CHOICE, unsafe (log entry 24): so is an aligned one of more than 32 bits below 0x20, of which
the manual does not say what it does. -/
def execRegisterWrite (offset : BitVec 12) (bytes : Nat) (value : Register) (s : State) : Answer :=
  .next <| s.reached fun s =>
    if bytes = 4 ∧ offset.toNat % 4 = 0 then s.writeRegister offset value else s

/-- POWER_ON_RESET: every block and register at its reset value; the configuration space and the link as at reset
(R171, log entries 2 and 3). -/
def execPowerOnReset (s : State) : Answer :=
  .next { s.hardReset .powerOn with link := initialLink, linkIsUp := true }

/-- PIN_RESET: as power-on reset with reset cause PIN; the configuration space and the link are kept (R171, R195). -/
def execPinReset (s : State) : Answer := .next (s.hardReset .pin)

end Sys2Proof.Machine
end

