-- ==== Sys2Proof/Machine/Rings.lean ====
section
/-! DEFINITION. The ring commands of chapters 7 and 8, QUERY_DEVICE, and the answers to an unknown kind and to an
unreadable record. -/
namespace Sys2Proof.Machine

/-- QUERY_DEVICE: the capacities and the free counts as they stand; no state but the answer (R130, R152). -/
def execQueryDevice (k : SlotId) (s : State) : Answer :=
  .next <| s.executing k Kind.queryDevice fun t r =>
    if t.ring ≠ 0 then s.answer k t r .wrongRing .blank
    else s.answer k t r .ok (.queryDevice (freeBlocks s.sets) (freeSetIds s.sets) s.freeSlots)

/-- What a CREATE_WORK_RING record names, when its fields are in range (R134). -/
structure CreateRequest where
  ring : WorkRingId
  resultRing : ResultRingId
  deriving DecidableEq, Repr

/-- The field check of CREATE_WORK_RING (R134). -/
def createRequest (r : Block64) : Option CreateRequest :=
  match idOf 8 (recordByte8 r), idOf 4 (recordByte9 r) with
  | some ring, some resultRing =>
    if ring ≠ 0 ∧ (recordAddress r).toNat % 64 = 0 ∧ ringSizeAccepted (recordSize r) ∧ 1 ≤ recordByteA r
        ∧ recordByteA r ≤ 8 then some ⟨ring, resultRing⟩
    else none
  | _, _ => none

/-- The checks of CREATE_WORK_RING in their order (R134). -/
def State.createCheck (s : State) (t : Task) (r : Block64) : Except Status CreateRequest :=
  if t.ring ≠ 0 then .error .wrongRing
  else
    match createRequest r with
    | none => .error .badField
    | some q =>
      if s.resultRings[q.resultRing].isNone then .error .noRing
      else if s.workRings[q.ring].isSome then .error .ringExists
      else .ok q

/-- CREATE_WORK_RING (R134, R135). -/
def execCreateWorkRing (k : SlotId) (s : State) : Answer :=
  .next <| s.executing k Kind.createWorkRing fun t r =>
    match s.createCheck t r with
    | .error status => s.answer k t r status .blank
    | .ok q =>
      ((s.setWorkRing q.ring (some (WorkRing.fresh (recordAddress r) (recordSize r) q.resultRing
          (some (recordByteA r))))).writeBack (.taken q.ring) 0).answer k t r .ok
        (.createWorkRing q.ring.val q.resultRing.val (recordSize r))

/-- A context names a work ring as home. -/
def Context.homedOn (ring : WorkRingId) (c : Context) : Bool :=
  match c.station with
  | none => false
  | some u => u.homeRing == ring

/-- A context names a result ring as notice ring. -/
def Context.notifiesOn (ring : ResultRingId) (c : Context) : Bool :=
  match c.station with
  | none => false
  | some u => u.noticeRing == ring

/-- The checks of DELETE_WORK_RING in their order (R136). -/
def State.deleteCheck (s : State) (t : Task) (r : Block64) : Except Status (WorkRingId × WorkRing) :=
  if t.ring ≠ 0 then .error .wrongRing
  else
    match idOf 8 (recordByte8 r) with
    | none => .error .badField
    | some ring =>
      if ring = 0 then .error .badField
      else
        match s.workRings[ring] with
        | none => .error .noRing
        | some w => if s.stations.toList.any (·.homedOn ring) then .error .ringInUse else .ok (ring, w)

/-- DELETE_WORK_RING: the ring turns DRAINING and the task enters DRAIN_WAIT; a ring with nothing in flight is deleted in
the same event (R133, R137, R138). -/
def execDeleteWorkRing (k : SlotId) (s : State) : Answer :=
  .next <| s.executing k Kind.deleteWorkRing fun t r =>
    match s.deleteCheck t r with
    | .error status => s.answer k t r status .blank
    | .ok (ring, w) =>
      ((s.setWorkRing ring (some { w with state := .draining })).setSlot k
        (some { t with phase := .drainWait r (.delete ring) })).endDeleteDrain k

/-- The field check of CREATE_RESULT_RING (R149). -/
def createResultRequest (r : Block64) : Option ResultRingId :=
  match idOf 4 (recordByte8 r) with
  | none => none
  | some ring =>
    if ring ≠ 0 ∧ (recordAddress r).toNat % 32 = 0 ∧ ringSizeAccepted (recordSize r) ∧ 1 ≤ recordThreshold r
        ∧ recordThreshold r ≤ recordSize r then some ring
    else none

/-- The checks of CREATE_RESULT_RING in their order (R149). -/
def State.createResultCheck (s : State) (t : Task) (r : Block64) : Except Status ResultRingId :=
  if t.ring ≠ 0 then .error .wrongRing
  else
    match createResultRequest r with
    | none => .error .badField
    | some ring => if s.resultRings[ring].isSome then .error .ringExists else .ok ring

/-- CREATE_RESULT_RING (R149). -/
def execCreateResultRing (k : SlotId) (s : State) : Answer :=
  .next <| s.executing k Kind.createResultRing fun t r =>
    match s.createResultCheck t r with
    | .error status => s.answer k t r status .blank
    | .ok ring =>
      ((s.setResultRing ring (some (ResultRing.fresh (recordAddress r) (recordSize r) (recordThreshold r)))).writeBack
          (.produced ring) 0).answer k t r .ok (.createResultRing ring.val (recordSize r) (recordThreshold r))

/-- A present work ring is bound to a result ring. -/
def boundTo (ring : ResultRingId) : Option WorkRing → Bool
  | none => false
  | some w => w.resultRing == ring

/-- The checks of DELETE_RESULT_RING in their order (R150). -/
def State.deleteResultCheck (s : State) (t : Task) (r : Block64) : Except Status (ResultRingId × ResultRing) :=
  if t.ring ≠ 0 then .error .wrongRing
  else
    match idOf 4 (recordByte8 r) with
    | none => .error .badField
    | some ring =>
      if ring = 0 then .error .badField
      else
        match s.resultRings[ring] with
        | none => .error .noRing
        | some q =>
          if s.workRings.toList.any (boundTo ring) || s.stations.toList.any (·.notifiesOn ring) then
            .error .ringInUse
          else .ok (ring, q)

/-- DELETE_RESULT_RING: the ring becomes ABSENT at once (R150). -/
def execDeleteResultRing (k : SlotId) (s : State) : Answer :=
  .next <| s.executing k Kind.deleteResultRing fun t r =>
    match s.deleteResultCheck t r with
    | .error status => s.answer k t r status .blank
    | .ok (ring, q) =>
      (s.setResultRing ring none).answer k t r .ok (.deleteResultRing ring.val (q.produced - q.released).toNat)

/-- A record of unknown kind completes with BAD_KIND and changes nothing else (R130, R190). DEDUCED, unsafe (log entry 25):
its body is 0 throughout, by R151 and R192, also where R58 has 0xFFFF in the metering contents of a BAD_KIND completion. -/
def execBadKind (k : SlotId) (s : State) : Answer :=
  .next <|
    match s.ready k with
    | some (t, some r) => if Kind.known.contains (recordKind r) then s else s.answer k t r .badKind .blank
    | _ => s

/-- A task with the unreadable mark completes with RECORD_UNREADABLE, tag 0xFFFF and its ring index (R153). -/
def execRecordUnreadable (k : SlotId) (s : State) : Answer :=
  .next <|
    match s.ready k with
    | some (t, none) =>
      s.setSlot k (some { t with
        phase := .writing none
          { status := .recordUnreadable, tag := 0xFFFF#16, ring := t.ring, station := 0xFF#8, body := .unreadable t.index }
          none })
    | _ => s

end Sys2Proof.Machine
end

