-- ==== Sys2Proof/Machine/Scheduler.lean ====
section
/-! DEFINITION. The events the device's own blocks take: TAKE, RESULT_WRITE, the two drain ends and NOTICE_EMISSION
(chapters 7 and 8). -/
namespace Sys2Proof.Machine

/-! ## The arbiter and the take (R122 to R125) -/

/-- A work ring is eligible for a take (R122). -/
def State.eligible (s : State) (n : WorkRingId) : Bool :=
  match s.workRings[n] with
  | none => false
  | some w =>
    w.state == .active && decide (w.posted ≠ w.taken) && decide (w.inFlight < Config.inFlightLimit n)
      && s.slots.toList.any (·.isNone)
      && (match s.resultRings[w.resultRing] with
          | none => false
          | some q => decide (1 ≤ q.unreservedFree))
      && decide (s.controller = .running)

/-- The pointer's ring may go on: its run counter is below its weight (R124). -/
def State.runLeft (s : State) : Bool :=
  match s.workRings[s.pointer] with
  | none => false
  | some w =>
    match w.weight with
    | none => false
    | some weight => decide (s.runCounter < weight)

/-- The station ring `j` places above a ring, wrapping from 7 to 1. -/
def ringAbove (p : WorkRingId) (j : Nat) : WorkRingId :=
  ⟨(p.val - 1 + j) % 7 + 1, by omega⟩

/-- The search of R124: the first eligible station ring upward from the ring after the pointer, ending with the
pointer's own. -/
def State.searchRing (s : State) : Option WorkRingId :=
  ((List.range 7).map fun j => ringAbove s.pointer (j + 1)).find? s.eligible

/-- What the arbiter chooses: the ring served, and the pointer and run counter after the take (R123, R124). -/
structure Choice where
  ring : WorkRingId
  pointer : WorkRingId
  runCounter : Nat
  deriving DecidableEq, Repr

/-- The arbiter's choice, when some ring is eligible (R123, R124). -/
def State.choose (s : State) : Option Choice :=
  if s.eligible 0 then some ⟨0, s.pointer, s.runCounter⟩
  else if s.pointer ≠ 0 ∧ s.eligible s.pointer ∧ s.runLeft then some ⟨s.pointer, s.pointer, s.runCounter + 1⟩
  else s.searchRing.map fun n => ⟨n, n, 1⟩

/-- The lowest-numbered FREE slot (R125). -/
def State.lowestFreeSlot (s : State) : Option SlotId :=
  (List.finRange 8).find? fun k => s.slots[k].isNone

/-- The take of a record of a ring into a slot (R125, R144). -/
def State.takeInto (s : State) (choice : Choice) (k : SlotId) (w : WorkRing) (q : ResultRing) : State :=
  ({ s with
      slots := s.slots.set k (some { ring := choice.ring, index := w.taken, phase := .reading, grid := .none })
      workRings := s.workRings.set choice.ring (some { w with taken := w.taken + 1, inFlight := w.inFlight + 1 })
      resultRings := s.resultRings.set w.resultRing (some { q with reserved := q.reserved + 1 })
      pointer := choice.pointer
      runCounter := choice.runCounter } : State).issue
    (.recordRead k choice.ring w.taken) (w.recordAddress w.taken) (.read 64)

/-- TAKE: one take by the arbiter; with no eligible ring no take is made (R122 to R125). -/
def execTake (s : State) : Answer :=
  .next <|
    match s.choose, s.lowestFreeSlot with
    | some choice, some k =>
      match s.workRings[choice.ring] with
      | none => s
      | some w =>
        match s.resultRings[w.resultRing] with
        | none => s
        | some q => s.takeInto choice k w q
    | _, _ => s

/-! ## The beginning of a result write (R131, R145) -/

/-- A snapshot write or result write of a slot is in flight. -/
def Transfer.ofSlotWrite (k : SlotId) (t : Transfer) : Bool :=
  match t.kind with
  | .snapshot j => j == k
  | .completion j _ _ => j == k
  | _ => false

/-- The result write of a slot may begin: WRITING, no write of its own in flight, and no task taken before it from the same
ring in the table (R131). -/
def State.mayWrite (s : State) (k : SlotId) (t : Task) : Bool :=
  s.earlierAll t (fun _ => false) && !s.transfers.any (Transfer.ofSlotWrite k)

/-- Place a completion: the record takes the placed index, and the reservation is given back (R144, R145). -/
def State.placeCompletion (s : State) (k : SlotId) (ring : ResultRingId) (q : ResultRing) (c : Completion) : State :=
  (s.setResultRing ring (some { q with placed := q.placed + 1, reserved := q.reserved - 1 })).issue
    (.completion k ring q.placed) (q.entryAddress q.placed) (.write c.bytes)

/-- RESULT_WRITE: a completion's result write begins once its slot may write; before that the task waits in WRITING with
its reservation (R131, R144, R145). -/
def execResultWrite (k : SlotId) (s : State) : Answer :=
  .next <|
    match s.slots[k] with
    | none => s
    | some t =>
      match t.phase with
      | .writing _ c _ =>
        match s.workRings[t.ring] with
        | none => s
        | some w =>
          match s.resultRings[w.resultRing] with
          | none => s
          | some q => if s.mayWrite k t && decide (1 ≤ q.reserved) then s.placeCompletion k w.resultRing q c else s
      | .reading | .fetching _ | .queued _ | .drainWait _ _ => s

/-! ## Drains and notices -/

/-- CLOSE_DRAIN_END: the close drain of a slot ends, where its condition holds (R9, R10). -/
def execCloseDrainEnd (k : SlotId) (s : State) : Answer := .next (s.endCloseDrain k)

/-- DELETE_DRAIN_END: the delete drain of a slot ends, where its condition holds (R138). -/
def execDeleteDrainEnd (k : SlotId) (s : State) : Answer := .next (s.endDeleteDrain k)

/-- NOTICE_EMISSION: the NOTICE of a station is emitted, where the conditions of R154 hold (R155). -/
def execNoticeEmission (id : StationId) (s : State) : Answer := .next (s.emitNotice id)

end Sys2Proof.Machine
end

