-- ==== Sys2Proof/Machine/Stations.lean ====
section
/-! DEFINITION. The control commands of the station table: OPEN_STATION, CLOSE_STATION and READ_STATION (chapter 1). -/
namespace Sys2Proof.Machine

/-! ## OPEN_STATION -/

/-- What an OPEN_STATION record names, when its fields are in range (R4). -/
structure OpenRequest where
  id : StationId
  home : WorkRingId
  notice : ResultRingId
  set : Option SetId
  deriving DecidableEq, Repr

/-- The set id byte: 0 … 7, or 0xFF for NONE (R190). -/
def openSetId (b : Nat) : Option (Option SetId) :=
  if b = 0xFF then some none else (idOf 8 b).map some

/-- The field check of OPEN_STATION (R4). -/
def openRequest (r : Block64) : Option OpenRequest :=
  match idOf 32 (recordByte8 r), idOf 8 (recordByte9 r), idOf 4 (recordByteA r), openSetId (recordByteB r) with
  | some id, some home, some notice, some set =>
    if home ≠ 0 ∧ 16 ≤ recordSize r ∧ 1 ≤ recordDelay r ∧ recordDelay r ≤ 4 ∧ actuatorsAccepted r then
      some ⟨id, home, notice, set⟩
    else none
  | _, _, _, _ => none

/-- A work ring is ACTIVE. -/
def State.ringActive (s : State) (n : WorkRingId) : Bool :=
  match s.workRings[n] with
  | none => false
  | some w => w.state == .active

/-- The check of a set that must be OPEN and owned by a ring (R4, R103, R106): NO_SET, then NOT_OWNER. -/
def openSetCheck (ring : WorkRingId) : StagingSet → Except Status (List Item)
  | .free | .armed _ _ _ _ => .error .noSet
  | .opened owner items => if owner = ring then .ok items else .error .notOwner

/-- The items of the set an OPEN_STATION names; none where it names no set. -/
def State.openItems (s : State) : Option SetId → Except Status (List Item)
  | none => .ok []
  | some id => openSetCheck 0 s.sets[id]

/-- The checks of R4 in their order; it answers the request and the items of the named set. -/
def State.openCheck (s : State) (t : Task) (r : Block64) : Except Status (OpenRequest × List Item) :=
  if t.ring ≠ 0 then .error .wrongRing
  else
    match openRequest r with
    | none => .error .badField
    | some q =>
      if !s.ringActive q.home || s.resultRings[q.notice].isNone then .error .noRing
      else
        match s.openItems q.set with
        | .error status => .error status
        | .ok items => if s.stations[q.id] = .free then .ok (q, items) else .error .stationInUse

/-- The station that a successful OPEN_STATION fills in (R6, R73). -/
def openedStation (q : OpenRequest) (r : Block64) (p : Profile) : Station where
  homeRing := q.home
  noticeRing := q.notice
  frameLines := recordSize r
  applyDelay := recordDelay r
  profile := p
  loop := .idle
  lastFrame := none
  lastMean := none
  lastCompensated := none
  lastClip := none
  older := []
  newest := entryOf (recordSize r) none (treat p (recordSize r) (recordI r) (recordG r) (recordL r))
  armed := []
  pendingSet := 0
  noticeArmed := true
  noticeInFlight := false
  measures := 0
  decisions := 0
  skipped := 0

/-- Free the set an OPEN_STATION names (R5). -/
def State.freeNamed (s : State) : Option SetId → State
  | none => s
  | some id => s.setSet id .free

/-- The body of an OPEN_STATION that did not open: the station id of the record, and the failing relation (R7). -/
def failedOpenBody (r : Block64) (relation : Nat) : Body := .openStation 0 .idle relation (recordByte8 r) 0 0 0

/-- OPEN_STATION (R4 to R7). -/
def execOpenStation (k : SlotId) (s : State) : Answer :=
  .next <| s.executing k Kind.openStation fun t r =>
    match s.openCheck t r with
    | .error status => s.answer k t r status (failedOpenBody r 0)
    | .ok (q, items) =>
      let p := Profile.defaults.merge items
      if !p.consistent then s.answer k t r .profileInvalid (failedOpenBody r p.failingRelation)
      else
        let c := openedStation q r p
        ((s.freeNamed q.set).setStation q.id (.opened c)).answer k t r .ok
          (.openStation (recordByteB r) .idle 0 (recordByte8 r) c.newest.i c.newest.g c.newest.l)

/-! ## CLOSE_STATION -/

/-- A task holds a home-ring slot for a close's drain set: its record names the station, or is still being read (R8). -/
def Task.drainsFor (ring : WorkRingId) (id : StationId) (t : Task) : Bool :=
  decide (t.ring = ring) &&
    match t.phase with
    | .reading => true
    | .fetching r | .queued (some r) | .drainWait r _ | .writing (some r) _ _ => namesStation r id
    | .queued none | .writing none _ _ => false

/-- The drain set of a close, as it stands at its execution (R8). -/
def State.drainSet (s : State) (ring : WorkRingId) (id : StationId) : List SlotId :=
  (List.finRange 8).filter fun j =>
    match s.slots[j] with
    | none => false
    | some t => t.drainsFor ring id

/-- The checks of CLOSE_STATION (R8). -/
def State.closeCheck (s : State) (t : Task) (r : Block64) : Except Status (StationId × Station) :=
  if t.ring ≠ 0 then .error .wrongRing
  else
    match idOf 32 (recordByte8 r) with
    | none => .error .badField
    | some id =>
      match s.stations[id] with
      | .free => .error .noStation
      | .opened c => .ok (id, c)
      | .closing _ => .error .stationClosing

/-- CLOSE_STATION: the station turns CLOSING and the task enters DRAIN_WAIT with its drain set; a drain with nothing to
wait for ends in the same event (R8, R9, R10). -/
def execCloseStation (k : SlotId) (s : State) : Answer :=
  .next <| s.executing k Kind.closeStation fun t r =>
    match s.closeCheck t r with
    | .error status => s.answer k t r status .blank
    | .ok (id, c) =>
      ((s.setStation id (.closing c)).setSlot k
        (some { t with phase := .drainWait r (.close id (s.drainSet c.homeRing id)) })).endCloseDrain k

/-! ## READ_STATION -/

/-- The checks of READ_STATION (R13). -/
def State.readCheck (s : State) (t : Task) (r : Block64) : Except Status (StationId × Station) :=
  if t.ring ≠ 0 then .error .wrongRing
  else
    match idOf 32 (recordByte8 r) with
    | none => .error .badField
    | some id =>
      if (recordAddress r).toNat % 64 ≠ 0 then .error .badField
      else
        match s.stations[id].station with
        | none => .error .noStation
        | some c => .ok (id, c)

/-- READ_STATION: the context is captured into an image, and its snapshot write begins (R13, R14). -/
def execReadStation (k : SlotId) (s : State) : Answer :=
  .next <| s.executing k Kind.readStation fun t r =>
    match s.readCheck t r with
    | .error status => s.answer k t r status .blank
    | .ok (id, c) =>
      let image := snapshotBytes id s.stations[id].state c s.sets
      (s.setSlot k (some { t with
        phase := .writing (some r) (completionOf t r .ok (.readStation s.stations[id].state c.loop)) (some image) })).issue
        (.snapshot k) (recordAddress r) (.write image)

end Sys2Proof.Machine
end

