-- ==== Sys2Proof/Machine/Staging.lean ====
section
/-! DEFINITION. The staging commands: STAGE_OPEN, STAGE_PUT, STAGE_COMMIT and STAGE_DISCARD (chapter 6). -/
namespace Sys2Proof.Machine

/-- The contents a staging completion adds to the set id and the pool counts (R117). -/
structure StageExtra where
  relation : Nat := 0
  itemCount : Nat := 0
  blocksHeld : Nat := 0
  prior : SetState := .free
  position : Nat := 0
  frame : Frame := 0
  deriving DecidableEq, Repr

/-- The body of a staging completion: the set id, and the pool's counts after the command (R117). -/
def stageBody (sets : Vector StagingSet 8) (setId : Nat) (x : StageExtra) : Body :=
  .stage setId (freeBlocks sets) (freeSetIds sets) x.relation x.itemCount x.blocksHeld x.prior x.position x.frame

/-- Answer a staging command on the state it leaves. -/
def State.answerStage (s : State) (k : SlotId) (t : Task) (r : Block64) (status : Status) (setId : Nat)
    (x : StageExtra) : State :=
  s.answer k t r status (stageBody s.sets setId x)

/-- STAGE_OPEN: the lowest FREE id opens for the task's ring, or SET_LIMIT (R102). -/
def execStageOpen (k : SlotId) (s : State) : Answer :=
  .next <| s.executing k Kind.stageOpen fun t r =>
    match lowestFreeSet s.sets with
    | none => s.answerStage k t r .setLimit 0xFF {}
    | some id => (s.setSet id (.opened t.ring [])).answerStage k t r .ok id.val {}

/-- The field check of STAGE_PUT: the set id and the items (R103). -/
def putRequest (r : Block64) : Option (SetId × List Item) :=
  match idOf 8 (recordByte8 r) with
  | none => none
  | some id =>
    if 1 ≤ recordByte9 r ∧ recordByte9 r ≤ 6 then (recordItems r (recordByte9 r) 0).map fun items => (id, items)
    else none

/-- The checks of STAGE_PUT in their order (R103); it answers the set and its items after the put. -/
def State.putCheck (s : State) (t : Task) (r : Block64) : Except Status (SetId × List Item) :=
  match putRequest r with
  | none => .error .badField
  | some (id, items) =>
    match openSetCheck t.ring s.sets[id] with
    | .error status => .error status
    | .ok held =>
      if freeBlocks s.sets < blocksNeeded items held then .error .noSpace else .ok (id, putItems items held)

/-- STAGE_PUT: a record's items put whole or not at all (R103, R104). -/
def execStagePut (k : SlotId) (s : State) : Answer :=
  .next <| s.executing k Kind.stagePut fun t r =>
    match s.putCheck t r with
    | .error status => s.answerStage k t r status (recordByte8 r) {}
    | .ok (id, items) =>
      (s.setSet id (.opened t.ring items)).answerStage k t r .ok id.val
        { itemCount := items.length, blocksHeld := blocksFor items.length }

/-- What a STAGE_COMMIT that passes its checks acts on. -/
structure CommitRequest where
  setId : SetId
  items : List Item
  id : StationId
  station : Station
  deriving DecidableEq, Repr

/-- The checks of STAGE_COMMIT up to the CLOSING test (R106). -/
def State.commitCheck (s : State) (t : Task) (r : Block64) : Except Status CommitRequest :=
  match idOf 8 (recordByte8 r), idOf 32 (recordByte9 r) with
  | some setId, some id =>
    if 1 < recordByteA r then .error .badField
    else
      match openSetCheck t.ring s.sets[setId] with
      | .error status => .error status
      | .ok items =>
        match s.stations[id] with
        | .free => .error .noStation
        | .opened c => if c.homeRing ≠ t.ring then .error .wrongRing else .ok ⟨setId, items, id, c⟩
        | .closing c => if c.homeRing ≠ t.ring then .error .wrongRing else .error .stationClosing
  | _, _ => .error .badField

/-- Where a set armed at frame e stands in an armed list of at most one set: before a set whose frame is after e, else
after it (R108). -/
def armPosition (sets : Vector StagingSet 8) (e : Frame) : List SetId → Nat
  | [] => 0
  | id :: _ => if frameAfter sets[id].frame e then 0 else 1

/-- Arming: the list checks, then the set becomes ARMED and joins the list (R106, R108). -/
def State.commitAtFrame (s : State) (k : SlotId) (t : Task) (r : Block64) (q : CommitRequest) : State :=
  let e := recordFrame r
  if 2 ≤ q.station.armed.length then s.answerStage k t r .armLimit q.setId.val {}
  else if q.station.armed.any fun id => s.sets[id].frame == e then s.answerStage k t r .armConflict q.setId.val {}
  else
    let position := armPosition s.sets e q.station.armed
    ((s.setSet q.setId (.armed t.ring q.items q.id e)).setStation q.id
        (.opened { q.station with armed := q.station.armed.insertIdx position q.setId })).answerStage k t r .ok
      q.setId.val { position, frame := e }

/-- IMMEDIATE: the merged profile is installed with APPLIED raised, or PROFILE_INVALID (R107). -/
def State.commitImmediate (s : State) (k : SlotId) (t : Task) (r : Block64) (q : CommitRequest) : State :=
  let merged := q.station.profile.merge q.items
  if !merged.consistent then s.answerStage k t r .profileInvalid q.setId.val { relation := merged.failingRelation }
  else
    ((s.setSet q.setId .free).setStation q.id
        (.opened (({ q.station with profile := merged } : Station).raise .applied))).answerStage k t r .ok q.setId.val {}

/-- STAGE_COMMIT (R106 to R108). -/
def execStageCommit (k : SlotId) (s : State) : Answer :=
  .next <| s.executing k Kind.stageCommit fun t r =>
    match s.commitCheck t r with
    | .error status => s.answerStage k t r status (recordByte8 r) {}
    | .ok q => if recordByteA r = 1 then s.commitAtFrame k t r q else s.commitImmediate k t r q

/-- The check of STAGE_DISCARD before the set's state is examined (R109). -/
def State.discardCheck (s : State) (t : Task) (r : Block64) : Except Status SetId :=
  match idOf 8 (recordByte8 r) with
  | none => .error .badField
  | some id =>
    match s.sets[id].owner with
    | none => .error .noSet
    | some owner => if owner ≠ t.ring then .error .notOwner else .ok id

/-- STAGE_DISCARD: an OPEN set is freed; an ARMED one is withdrawn while its station is OPEN (R109). -/
def execStageDiscard (k : SlotId) (s : State) : Answer :=
  .next <| s.executing k Kind.stageDiscard fun t r =>
    match s.discardCheck t r with
    | .error status => s.answerStage k t r status (recordByte8 r) {}
    | .ok setId =>
      match s.sets[setId] with
      | .free | .opened _ _ => (s.setSet setId .free).answerStage k t r .ok setId.val { prior := .opened }
      | .armed _ _ id _ =>
        match s.stations[id] with
        | .closing _ => s.answerStage k t r .stationClosing setId.val {}
        | .free => (s.setSet setId .free).answerStage k t r .ok setId.val { prior := .armed }
        | .opened c =>
          ((s.setSet setId .free).setStation id (.opened { c with armed := c.armed.erase setId })).answerStage k t r .ok
            setId.val { prior := .armed }

end Sys2Proof.Machine
end

