-- ==== Sys2Proof/Machine/Dispatch.lean ====
section
/-! DEFINITION. The dispatch of commands to their meanings. -/
namespace Sys2Proof.Machine

/-- The effect of a command on everything but the queue. -/
def exec (i : Instr) (s : State) : Host.Outcome State Fault Refusal :=
  match i with
  | .queryDevice slot => Sys2Proof.Machine.execQueryDevice slot s
  | .createWorkRing slot => Sys2Proof.Machine.execCreateWorkRing slot s
  | .deleteWorkRing slot => Sys2Proof.Machine.execDeleteWorkRing slot s
  | .createResultRing slot => Sys2Proof.Machine.execCreateResultRing slot s
  | .deleteResultRing slot => Sys2Proof.Machine.execDeleteResultRing slot s
  | .openStation slot => Sys2Proof.Machine.execOpenStation slot s
  | .closeStation slot => Sys2Proof.Machine.execCloseStation slot s
  | .readStation slot => Sys2Proof.Machine.execReadStation slot s
  | .measure slot => Sys2Proof.Machine.execMeasure slot s
  | .freeze slot => Sys2Proof.Machine.execFreeze slot s
  | .thaw slot => Sys2Proof.Machine.execThaw slot s
  | .reseek slot => Sys2Proof.Machine.execReseek slot s
  | .setActuators slot => Sys2Proof.Machine.execSetActuators slot s
  | .ackNotice slot => Sys2Proof.Machine.execAckNotice slot s
  | .stageOpen slot => Sys2Proof.Machine.execStageOpen slot s
  | .stagePut slot => Sys2Proof.Machine.execStagePut slot s
  | .stageCommit slot => Sys2Proof.Machine.execStageCommit slot s
  | .stageDiscard slot => Sys2Proof.Machine.execStageDiscard slot s
  | .badKind slot => Sys2Proof.Machine.execBadKind slot s
  | .recordUnreadable slot => Sys2Proof.Machine.execRecordUnreadable slot s
  | .softReset value => Sys2Proof.Machine.execSoftReset value s
  | .startUp value => Sys2Proof.Machine.execStartUp value s
  | .enableOff value => Sys2Proof.Machine.execEnableOff value s
  | .quiesce value => Sys2Proof.Machine.execQuiesce value s
  | .quiesceClear value => Sys2Proof.Machine.execQuiesceClear value s
  | .postWork value => Sys2Proof.Machine.execPostWork value s
  | .releaseResult value => Sys2Proof.Machine.execReleaseResult value s
  | .badOperation value => Sys2Proof.Machine.execBadOperation value s
  | .causeClear value => Sys2Proof.Machine.execCauseClear value s
  | .maskWrite value => Sys2Proof.Machine.execMaskWrite value s
  | .registerWrite offset bytes value => Sys2Proof.Machine.execRegisterWrite offset bytes value s
  | .powerOnReset => Sys2Proof.Machine.execPowerOnReset s
  | .pinReset => Sys2Proof.Machine.execPinReset s
  | .linkDown => Sys2Proof.Machine.execLinkDown s
  | .completionTimeout read epoch => Sys2Proof.Machine.execCompletionTimeout read s epoch
  | .take => Sys2Proof.Machine.execTake s
  | .recordReadDone slot record epoch => Sys2Proof.Machine.execRecordReadDone slot record s epoch
  | .recordReadFault slot epoch => Sys2Proof.Machine.execRecordReadFault slot s epoch
  | .gridReadDone slot data epoch => Sys2Proof.Machine.execGridReadDone slot data s epoch
  | .gridReadFault slot epoch => Sys2Proof.Machine.execGridReadFault slot s epoch
  | .snapshotWriteDone slot epoch => Sys2Proof.Machine.execSnapshotWriteDone slot s epoch
  | .snapshotWriteFault slot epoch => Sys2Proof.Machine.execSnapshotWriteFault slot s epoch
  | .resultWrite slot => Sys2Proof.Machine.execResultWrite slot s
  | .resultWriteDone ring index epoch => Sys2Proof.Machine.execResultWriteDone ring index s epoch
  | .resultWriteFault ring index epoch => Sys2Proof.Machine.execResultWriteFault ring index s epoch
  | .writebackFault place epoch => Sys2Proof.Machine.execWritebackFault place s epoch
  | .setupReadDone block epoch => Sys2Proof.Machine.execSetupReadDone block s epoch
  | .setupReadFault epoch => Sys2Proof.Machine.execSetupReadFault s epoch
  | .writebackZeroingDone epoch => Sys2Proof.Machine.execWritebackZeroingDone s epoch
  | .writebackZeroingFault epoch => Sys2Proof.Machine.execWritebackZeroingFault s epoch
  | .closeDrainEnd slot => Sys2Proof.Machine.execCloseDrainEnd slot s
  | .deleteDrainEnd slot => Sys2Proof.Machine.execDeleteDrainEnd slot s
  | .noticeEmission station => Sys2Proof.Machine.execNoticeEmission station s
  | .writebackDone place epoch => Sys2Proof.Machine.execWritebackDone place s epoch
  | .linkUp => Sys2Proof.Machine.execLinkUp s
  | .configurationSpaceWrite config => Sys2Proof.Machine.execConfigurationSpaceWrite config s

end Sys2Proof.Machine
end

