-- ==== Sys2Proof/WellFormed.lean ====
section
/-! DEFINITION. Which commands are spelled as their row says: the value of a register-write row is one that the row
names, and a grid's bytes fill whole cells. Ids are in range by their types. -/
namespace Sys2Proof

/-- A full, aligned write of a register that has rows of its own: CTRL, POST, CAUSE or MASK. -/
def ownRowOffset (offset : BitVec 12) : Bool :=
  [0x004#12, 0x014#12, 0x018#12, 0x01C#12].contains offset

/-- The command fits its row. A CTRL-write row also needs the controller state its row names, which is no matter of
syntax: what a CTRL write does in each state is R160's. -/
def Instr.wellFormed : Instr → Bool
  | .softReset v => Machine.ctrlSoftReset v
  | .startUp v => !Machine.ctrlSoftReset v && Machine.ctrlEnable v
  | .enableOff v => !Machine.ctrlSoftReset v && !Machine.ctrlEnable v
  | .quiesce v => !Machine.ctrlSoftReset v && Machine.ctrlEnable v && Machine.ctrlQuiesce v
  | .quiesceClear v => !Machine.ctrlSoftReset v && Machine.ctrlEnable v && !Machine.ctrlQuiesce v
  | .postWork v => Machine.postOperation v == 1#4
  | .releaseResult v => Machine.postOperation v == 2#4
  | .badOperation v => Machine.postOperation v != 1#4 && Machine.postOperation v != 2#4
  | .registerWrite offset bytes _ =>
      decide (1 ≤ bytes) && decide (bytes ≤ 4) && !(bytes == 4 && ownRowOffset offset)
  | .gridReadDone _ data _ => data.length % 4 == 0 && decide (4 ≤ data.length) && decide (data.length ≤ 256)
  | .queryDevice _ | .createWorkRing _ | .deleteWorkRing _ | .createResultRing _ | .deleteResultRing _
  | .openStation _ | .closeStation _ | .readStation _ | .measure _ | .freeze _ | .thaw _ | .reseek _
  | .setActuators _ | .ackNotice _ | .stageOpen _ | .stagePut _ | .stageCommit _ | .stageDiscard _
  | .badKind _ | .recordUnreadable _ | .causeClear _ | .maskWrite _ | .powerOnReset | .pinReset | .linkDown
  | .completionTimeout _ _ | .take | .recordReadDone _ _ _ | .recordReadFault _ _ | .gridReadFault _ _
  | .snapshotWriteDone _ _ | .snapshotWriteFault _ _ | .resultWrite _ | .resultWriteDone _ _ _ | .resultWriteFault _ _ _
  | .writebackFault _ _ | .setupReadDone _ _ | .setupReadFault _ | .writebackZeroingDone _ | .writebackZeroingFault _
  | .closeDrainEnd _ | .deleteDrainEnd _ | .noticeEmission _ | .writebackDone _ _ | .linkUp
  | .configurationSpaceWrite _ => true

end Sys2Proof
end

