-- ==== Sys2Proof/Safety.lean ====
section
/-! DEFINITION. What the claims speak of: when a command can act (a task whose turn it is, a station that obeys it, a ring
that may be taken from), what an event leaves behind, and the properties a sound state has. -/
namespace Sys2Proof.Machine

/-! ## When a command can act -/

/-- A task of a slot executes now: QUEUED with its record, every earlier task of its ring executed (R129), and the record
of a kind. -/
structure Runs (s : State) (k : SlotId) (t : Task) (r : Block64) (kind : Nat) : Prop where
  held : s.slots[k] = some t
  queued : t.phase = .queued (some r)
  turn : ∀ j : SlotId, ∀ u ∈ s.slots[j], u.before t → u.executed
  kind : recordKind r = kind

/-- A home-ring record names an OPEN station whose home ring is the task's (R3). -/
structure Obeys (s : State) (t : Task) (r : Block64) (id : StationId) (c : Station) : Prop where
  fromStationRing : t.ring ≠ 0
  named : recordByte8 r = id.val
  opened : s.stations[id] = .opened c
  home : c.homeRing = t.ring

/-- The slot and the kind code of a home-ring command (R130). -/
def homeKindOf : Instr → Option (SlotId × Nat)
  | .measure k => some (k, 0x10)
  | .freeze k => some (k, 0x11)
  | .thaw k => some (k, 0x12)
  | .reseek k => some (k, 0x13)
  | .setActuators k => some (k, 0x14)
  | .ackNotice k => some (k, 0x15)
  | _ => none

/-- Actuator values in the device-wide ranges (R4, R18). -/
abbrev ActuatorsInRange (r : Block64) : Prop :=
  1 ≤ recordI r ∧ 16 ≤ recordG r ∧ recordG r ≤ 1023 ∧ 1 ≤ recordL r ∧ recordL r ≤ 256

/-- The fields of a MEASURE in range (R24). -/
abbrev MeasureInRange (r : Block64) : Prop :=
  (1 ≤ recordByte9 r ∧ recordByte9 r ≤ 8) ∧ (1 ≤ recordByteA r ∧ recordByteA r ≤ 8) ∧
    (recordSynth r = false → (recordAddress r).toNat % 4 = 0) ∧
    (recordSynth r = true → recordByteB r ≤ 1 ∧ recordBase r ≤ 4095 ∧ recordSlope r ≤ 4095)

/-- The fields of a home-ring record beside its station id, by kind (R3, R18, R24). -/
abbrev FieldsInRange (kind : Nat) (r : Block64) : Prop :=
  (kind = 0x10 → MeasureInRange r) ∧ (kind = 0x14 → ActuatorsInRange r)

/-- A MEASURE that has passed the checks of stage 1 (R3). -/
structure Measures (s : State) (k : SlotId) (t : Task) (r : Block64) (id : StationId) (c : Station) : Prop where
  runs : Runs s k t r 0x10
  obeys : Obeys s t r id c
  fields : MeasureInRange r

/-- A work ring size or result ring size of R118 and R142. -/
abbrev RingSize (n : Nat) : Prop :=
  n = 8 ∨ n = 16 ∨ n = 32 ∨ n = 64 ∨ n = 128 ∨ n = 256 ∨ n = 512 ∨ n = 1024

/-- A work ring may be taken from now (R122). -/
structure Eligible (s : State) (n : WorkRingId) (w : WorkRing) (q : ResultRing) : Prop where
  present : s.workRings[n] = some w
  active : w.state = .active
  waiting : w.posted ≠ w.taken
  belowLimit : w.inFlight < if n = 0 then 1 else 4
  slot : ∃ k : SlotId, s.slots[k] = none
  bound : s.resultRings[w.resultRing] = some q
  room : (q.placed - q.released).toNat + q.reserved < q.size
  running : s.controller = .running

/-- Some descriptor makes the ring eligible. -/
def CanTake (s : State) (n : WorkRingId) : Prop := ∃ w q, Eligible s n w q

/-- The pointer's ring has not used its run (R124). -/
def RunLeft (s : State) : Prop :=
  ∃ w weight, s.workRings[s.pointer] = some w ∧ w.weight = some weight ∧ s.runCounter < weight

/-- The arbiter serves ring `n`, leaving the pointer and run counter as named (R123, R124). -/
inductive Serves (s : State) (n : WorkRingId) (pointer : WorkRingId) (run : Nat) : Prop where
  | control (can : CanTake s 0) (ring : n = 0) (kept : pointer = s.pointer) (keptRun : run = s.runCounter)
  | again (no : ¬CanTake s 0) (can : CanTake s s.pointer) (left : RunLeft s) (ring : n = s.pointer)
      (kept : pointer = s.pointer) (raised : run = s.runCounter + 1)
  | search (no : ¬CanTake s 0) (used : ¬(CanTake s s.pointer ∧ RunLeft s)) (place : Nat) (low : 1 ≤ place)
      (high : place ≤ 7) (ring : n.val = (s.pointer.val - 1 + place) % 7 + 1) (can : CanTake s n)
      (first : ∀ j : Nat, ∀ m : WorkRingId, 1 ≤ j → j < place → m.val = (s.pointer.val - 1 + j) % 7 + 1 → ¬CanTake s m)
      (moved : pointer = n) (afresh : run = 1)

/-- The contents of a setup block have the accepted values (R162, R189). -/
structure SetupInRange (b : Block64) : Prop where
  format : content b 0x00 4 = 1
  controlBase : content b 0x08 8 % 64 = 0
  controlSize : RingSize (content b 0x10 2)
  resultBase : content b 0x18 8 % 32 = 0
  resultSize : RingSize (content b 0x20 2)
  thresholdLow : 1 ≤ content b 0x22 2
  thresholdHigh : content b 0x22 2 ≤ content b 0x20 2
  writeBack : content b 0x28 8 % 32 = 0

/-- The controller acts on a halt request (R167, R168). -/
abbrev Halts (s : State) : Prop :=
  s.controller = .starting ∨ s.controller = .running ∨ s.controller = .quiescing ∨ s.controller = .quiesced

/-- The value a command writes to CTRL by a full, aligned write (R160, R187). -/
def ctrlWriteOf : Instr → Option Register
  | .softReset v | .startUp v | .enableOff v | .quiesce v | .quiesceClear v => some v
  | .registerWrite offset bytes v => if bytes = 4 ∧ offset = 0x004#12 then some v else none
  | _ => none

/-- A command is the done end of a transfer: it names what the transfer was of and the epoch it was requested in (R176). -/
def endsDone : Instr → Transfer → Bool
  | .setupReadDone _ e, x => x.kind == .setupRead && x.epoch == e
  | .writebackZeroingDone e, x => x.kind == .zeroing && x.epoch == e
  | .recordReadDone k _ e, x => (match x.kind with | .recordRead j _ _ => j == k | _ => false) && x.epoch == e
  | .gridReadDone k _ e, x => x.kind == .gridRead k && x.epoch == e
  | .snapshotWriteDone k e, x => x.kind == .snapshot k && x.epoch == e
  | .resultWriteDone ring index e, x => x.resultIndex ring == some index && x.epoch == e
  | .writebackDone place e, x => x.kind == .writeBack place && x.epoch == e
  | _, _ => false

/-- A command is the failed end of a transfer (R176). -/
def endsFailed : Instr → Transfer → Bool
  | .setupReadFault e, x => x.kind == .setupRead && x.epoch == e
  | .writebackZeroingFault e, x => x.kind == .zeroing && x.epoch == e
  | .recordReadFault k e, x => (match x.kind with | .recordRead j _ _ => j == k | _ => false) && x.epoch == e
  | .gridReadFault k e, x => x.kind == .gridRead k && x.epoch == e
  | .snapshotWriteFault k e, x => x.kind == .snapshot k && x.epoch == e
  | .resultWriteFault ring index e, x => x.resultIndex ring == some index && x.epoch == e
  | .writebackFault place e, x => x.kind == .writeBack place && x.epoch == e
  | _, _ => false

/-- A command is an end of a transfer. -/
def isEnd : Instr → Bool
  | .setupReadDone _ _ | .writebackZeroingDone _ | .recordReadDone _ _ _ | .gridReadDone _ _ _ | .snapshotWriteDone _ _
  | .resultWriteDone _ _ _ | .writebackDone _ _ | .setupReadFault _ | .writebackZeroingFault _ | .recordReadFault _ _
  | .gridReadFault _ _ | .snapshotWriteFault _ _ | .resultWriteFault _ _ _ | .writebackFault _ _ => true
  | _ => false

/-- The oldest transfer in flight of a kind and epoch. -/
abbrev oldest (s : State) (kind : TransferKind) (epoch : Nat) : Option Transfer :=
  s.transfers.find? fun x => x.kind == kind && x.epoch == epoch

/-- The oldest result write in flight of a ring and index, requested in an epoch. -/
abbrev oldestResult (s : State) (ring : ResultRingId) (index : RingIndex) (epoch : Nat) : Option Transfer :=
  s.transfers.find? fun x => x.resultIndex ring == some index && x.epoch == epoch

/-! ## What an event leaves behind -/

/-- The task in WRITING with the completion of its record: status and body, with the record's tag and station and the ring
the task was taken from (R131, R151). -/
def answered (t : Task) (r : Block64) (status : Status) (body : Body) : Task :=
  { t with phase := .writing (some r) { status, tag := recordTag r, ring := t.ring, station := stationByte r, body } none }

/-- The body of a home-ring command other than MEASURE that completed with OK (R94, R192). -/
def reportBody (loop : LoopState) (newest : Entry) : Body := .home .none false none none none (some ⟨loop, newest⟩)

/-- A condition bit joins the pending set where NOTICE_MASK holds it (R20). -/
def joined (c : Station) (bits : Conditions) : Conditions := c.pendingSet ||| (bits &&& c.profile.noticeMask)

/-- The interrupt messages after CAUSE and MASK have taken new values (R173, R195). -/
def messagesAfter (s : State) (cause mask : BitVec 8) : List Message :=
  if s.cause &&& s.mask = 0 ∧ cause &&& mask ≠ 0 ∧ s.link.messageEnable = true ∧ s.link.busMaster = true then
    s.messages ++ [⟨s.link.messageAddress, s.link.messageData⟩]
  else s.messages

/-- A transfer as the link port takes it: while the link is down or bus mastering disabled it can only fail, and none of
its bytes are passed (R176, R195). -/
def requested (s : State) (kind : TransferKind) (address : Address) (payload : Payload) : Transfer :=
  { kind, address, payload, failing := !(s.linkIsUp && s.link.busMaster)
    refused := !(s.linkIsUp && s.link.busMaster), epoch := s.epoch }

/-- The write-back of a work ring's taken-index place (R189). -/
def takenWriteBack (s : State) (n : WorkRingId) (index : RingIndex) : Transfer :=
  requested s (.writeBack (.taken n)) (s.writeBackAddress + BitVec.ofNat 64 (2 * n.val)) (.write (leBytes 2 index.toNat))

/-- The write-back of a result ring's produced-index place (R189). -/
def producedWriteBack (s : State) (n : ResultRingId) (index : RingIndex) : Transfer :=
  requested s (.writeBack (.produced n)) (s.writeBackAddress + BitVec.ofNat 64 (0x10 + 2 * n.val))
    (.write (leBytes 2 index.toNat))

/-- The transfers in flight once the oldest of a kind and epoch has ended. -/
def without (s : State) (kind : TransferKind) (epoch : Nat) : List Transfer :=
  s.transfers.eraseP fun x => x.kind == kind && x.epoch == epoch

/-- Host memory after writes that failed or were abandoned: each byte keeps its content, or holds the byte that one of those
writes put there, a write that was carried when it was requested (R14, R145, R176, R182, R194, R195). -/
def Torn (writes : List Transfer) (before after : Memory) : Prop :=
  ∀ a : Nat, after.read a = before.read a ∨
    ∃ x ∈ writes, x.refused = false ∧ ∃ data i, x.payload = .write data ∧
      a = (x.address + BitVec.ofNat 64 i).toNat ∧ i < data.length ∧ after.read a = data[i]?

/-- The state after enable-off, whatever it was before, but for CTRL.QUIESCE: every block torn down, every transfer
abandoned, so that the next one requested is of the next epoch (R169; the count of epochs is the model's: log entry 20). -/
def tornDown (s : State) (memory : Memory) (draws : Nat) : State :=
  { s with
    controller := .off
    heldSetup := none
    workRings := Vector.replicate 8 none
    slots := Vector.replicate 8 none
    pointer := 1
    runCounter := 0
    stations := Vector.replicate 32 .free
    sets := Vector.replicate 8 .free
    resultRings := Vector.replicate 4 none
    transfers := []
    hostMemory := memory
    draws := draws
    epoch := s.epoch + 1 }

/-- The writes a halt abandons: all but the write-backs (R167, R182). -/
def abandonedByHalt (s : State) : List Transfer := s.transfers.filter fun x => !x.isWriteBack

/-- The state after a halt: HALTED with its cause, the task table empty, every in-flight and reserved count 0, only
write-backs in flight, cause HALTED set; all else kept (R140, R144, R167), but for the model's count of epochs (log
entry 20). -/
def haltedAs (s : State) (why : HaltCause) (memory : Memory) (draws : Nat) : State :=
  { s with
    controller := .halted
    haltCause := why
    heldSetup := none
    slots := Vector.replicate 8 none
    workRings := Vector.ofFn fun n => (s.workRings[n]).map fun w => { w with inFlight := 0 }
    resultRings := Vector.ofFn fun n => (s.resultRings[n]).map fun q => { q with reserved := 0 }
    transfers := s.transfers.filter Transfer.isWriteBack
    cause := s.cause ||| 0x40#8
    messages := messagesAfter s (s.cause ||| 0x40#8) s.mask
    hostMemory := memory
    draws := draws
    epoch := s.epoch + 1 }

/-- The state after a rejected POST write (R174). -/
def rejectedAs (s : State) (value : Register) (reason : RejectReason) : State :=
  { s with
    rejection := { operation := postOperation value, reason := reason, ringId := postRing value }
    cause := s.cause ||| 0x80#8
    messages := messagesAfter s (s.cause ||| 0x80#8) s.mask }

/-- The RESULTn bit of CAUSE (R187). -/
def resultBit (n : ResultRingId) : BitVec 8 := BitVec.ofNat 8 (2 ^ n.val)

/-- A station waits for its NOTICE (R154). -/
abbrev Waiting (c : Station) : Prop := c.pendingSet ≠ 0 ∧ c.noticeArmed = true

/-- A station with what it holds, where it waits for a NOTICE on a ring (R154). -/
def waitsOn (s : State) (n : ResultRingId) (id : StationId) : Option (StationId × Station) :=
  match s.stations[id] with
  | .opened c => if c.noticeRing = n ∧ Waiting c then some (id, c) else none
  | .free | .closing _ => none

/-- The stations that the unreserved free slots of a ring serve: of those waiting on it, the lowest ids first (R148,
R154). -/
def servedOn (s : State) (n : ResultRingId) : List (StationId × Station) :=
  match s.resultRings[n] with
  | none => []
  | some q =>
    ((List.finRange 32).filterMap (waitsOn s n)).take (q.size - ((q.placed - q.released).toNat + q.reserved))

/-- The NOTICE write of a station served as the j-th on a ring: it has the j-th ring index from the placed index on, the
address of that index, and the contents captured from the station (R142, R145, R155). -/
def noticeWrite (s : State) (n : ResultRingId) (q : ResultRing) (x : (StationId × Station) × Nat) : Transfer :=
  requested s (.notice x.1.1 n (q.placed + BitVec.ofNat 16 x.2))
    (q.base + BitVec.ofNat 64 (32 * ((q.placed + BitVec.ofNat 16 x.2).toNat % q.size)))
    (.write (noticeBytes x.1.1 x.1.2))

/-- The NOTICE writes of the stations served on a ring, in their order. -/
def noticesOn (s : State) (n : ResultRingId) : List Transfer :=
  match s.resultRings[n] with
  | none => []
  | some q => (servedOn s n).zipIdx.map (noticeWrite s n q)

/-- A context after the emission of notices: a station served has its pending set captured and cleared (R155). -/
def captured (served : List (StationId × Station)) (id : StationId) : Context → Context
  | .free => .free
  | .closing c => .closing c
  | .opened c =>
    if (id, c) ∈ served then .opened { c with pendingSet := 0, noticeArmed := false, noticeInFlight := true }
    else .opened c

/-- The state once the unreserved free slots of the rings listed have been offered to the stations waiting on them, ring
after ring: each station served is captured and cleared, each ring's placed index has risen by the number it served, and
their NOTICE writes are in flight (R148, R155, R156; the order of the rings is log entry 5's). -/
def afterOffers (s : State) (rings : List ResultRingId) : State :=
  { s with
    stations := Vector.ofFn fun id => captured (rings.flatMap (servedOn s)) id s.stations[id]
    resultRings := Vector.ofFn fun n =>
      if n ∈ rings then
        (s.resultRings[n]).map fun q => { q with placed := q.placed + BitVec.ofNat 16 (servedOn s n).length }
      else s.resultRings[n]
    transfers := s.transfers ++ rings.flatMap (noticesOn s) }

/-- A task is in DRAIN_WAIT. -/
def Task.draining (t : Task) : Bool :=
  match t.phase with
  | .drainWait _ _ => true
  | .reading | .fetching _ | .queued _ | .writing _ _ _ => false

/-- A drain's condition holds (R9, R133): a close with an empty drain set and no NOTICE write of its station in flight, or
a deletion of a ring with nothing in flight. -/
def DrainDue (s : State) (k : SlotId) : Prop :=
  ∃ t r, s.slots[k] = some t ∧
    ((∃ id c, t.phase = .drainWait r (.close id []) ∧ s.stations[id] = .closing c ∧ c.noticeInFlight = false) ∨
      ∃ n w, t.phase = .drainWait r (.delete n) ∧ s.workRings[n] = some w ∧ w.inFlight = 0)

/-- The state after a record write of a result ring has ended done, but for what is the writer's: the record is in host
memory, the produced index has moved to the oldest write of the ring still in flight and is being written back, and the
record is counted, with the signal at the threshold (R146, R157). -/
def recordWritten (s : State) (ring : ResultRingId) (q : ResultRing) (x : Transfer) (data : List Byte) : State :=
  let rest := without s x.kind x.epoch
  let produced := (rest.findSome? (Transfer.resultIndex ring)).getD q.placed
  let signals := decide (q.threshold ≤ q.unsignalled + 1)
  { s with
    resultRings := s.resultRings.set ring (some
      { q with produced := produced, unsignalled := if signals then 0 else q.unsignalled + 1 })
    cause := if signals then s.cause ||| resultBit ring else s.cause
    messages := if signals then messagesAfter s (s.cause ||| resultBit ring) s.mask else s.messages
    transfers := rest ++ [producedWriteBack s ring produced]
    hostMemory := Memory.writeBytes s.hostMemory x.address data }

/-- The state after the close of a station whose task is in slot j has ended: its armed sets and its context are FREE, and
the completion reports them and the counters (R10). -/
def closedAs (s : State) (j : SlotId) (u : Task) (r : Block64) (id : StationId) (c : Station) : State :=
  { s with
    sets := Vector.ofFn fun i => if i ∈ c.armed then .free else s.sets[i]
    stations := s.stations.set id .free
    slots := s.slots.set j (some (answered u r .ok
      (.closeStation c.armed.length c.measures c.decisions c.skipped))) }

/-- The state after the deletion of a work ring whose task is in slot j has ended: the ring is ABSENT, its OPEN sets are
FREE, and the completion reports them and the abandoned records (R138). -/
def deletedAs (s : State) (j : SlotId) (u : Task) (r : Block64) (n : WorkRingId) (w : WorkRing) : State :=
  { s with
    sets := Vector.ofFn fun i => if (s.sets[i]).owner = some n ∧ (s.sets[i]).state = .opened then .free else s.sets[i]
    workRings := s.workRings.set n none
    slots := s.slots.set j (some (answered u r .ok (.deleteWorkRing n.val
      ((List.finRange 8).filter fun i => (s.sets[i]).owner == some n && (s.sets[i]).state == .opened).length
      (w.posted - w.taken).toNat))) }

/-- The controller states one event can lead to (R159 to R170). -/
def mayBecome : ControllerState → List ControllerState
  | .off => [.off, .starting, .halted]
  | .starting => [.starting, .running, .quiesced, .halted, .off]
  | .running => [.running, .quiescing, .quiesced, .halted, .off]
  | .quiescing => [.quiescing, .running, .quiesced, .halted, .off]
  | .quiesced => [.quiesced, .running, .halted, .off]
  | .halted => [.halted, .off]

/-! ## What the device writes (tables of chapter 11) -/

/-- A row of a layout table: offset, size and value of a content. -/
abbrev Content := Nat × Nat × Nat

/-- Bytes of a length, laid out by a table: each content stands at its offset in its size, least significant byte first,
and every byte that no row names is 0 (R192, R193, R194). -/
structure Laid (length : Nat) (contents : List Content) (bytes : List Byte) : Prop where
  size : bytes.length = length
  named : ∀ x ∈ contents, leNat ((bytes.drop x.1).take x.2.1) = x.2.2 % 256 ^ x.2.1
  rest : ∀ a < length, (∀ x ∈ contents, a < x.1 ∨ x.1 + x.2.1 ≤ a) → bytes[a]? = some 0

/-- The table of completion bodies (before R192). -/
def bodyContents : Body → List Content
  | .blank => []
  | .home outcome veto mean compensated clip report =>
    [ (0x08, 1, outcome.code), (0x0C, 2, mean.getD 0xFFFF), (0x0E, 2, compensated.getD 0xFFFF),
      (0x10, 2, clip.getD 0xFFFF) ] ++
    match report with
    | none => [(0x0A, 1, if veto then 1 else 0)]
    | some ⟨loop, e⟩ =>
      [ (0x09, 1, loop.code), (0x0A, 1, (if veto then 1 else 0) + if e.effective = none then 2 else 0), (0x12, 2, e.i),
        (0x14, 2, e.g), (0x16, 2, e.l), (0x18, 4, (e.effective.getD 0).toNat) ]
  | .openStation setId loop relation station i g l =>
    [ (0x08, 1, setId), (0x09, 1, loop.code), (0x0A, 1, relation), (0x0B, 1, station), (0x12, 2, i), (0x14, 2, g),
      (0x16, 2, l) ]
  | .closeStation freed measures decisions skipped =>
    [(0x08, 1, freed), (0x0C, 4, measures.toNat), (0x10, 4, decisions.toNat), (0x14, 4, skipped.toNat)]
  | .readStation state loop => [(0x08, 1, state.code), (0x09, 1, loop.code)]
  | .stage setId freeBlocks freeIds relation itemCount blocksHeld prior position frame =>
    [ (0x08, 1, setId), (0x09, 1, freeBlocks), (0x0A, 1, freeIds), (0x0B, 1, relation), (0x0C, 1, itemCount),
      (0x0D, 1, blocksHeld), (0x0E, 1, prior.code), (0x0F, 1, position), (0x10, 4, frame.toNat) ]
  | .createWorkRing ring resultRing size => [(0x08, 1, ring), (0x09, 1, resultRing), (0x0C, 2, size)]
  | .deleteWorkRing ring setsFreed abandoned => [(0x08, 1, ring), (0x09, 1, setsFreed), (0x0C, 2, abandoned)]
  | .createResultRing ring size threshold => [(0x08, 1, ring), (0x0C, 2, size), (0x0E, 2, threshold)]
  | .deleteResultRing ring lost => [(0x08, 1, ring), (0x0C, 2, lost)]
  | .queryDevice freeBlocks freeIds freeSlots =>
    [ (0x08, 1, 32), (0x09, 1, 8), (0x0A, 1, 4), (0x0B, 1, 8), (0x0C, 1, 24), (0x0D, 1, freeBlocks), (0x0E, 1, freeIds),
      (0x0F, 1, freeSlots) ]
  | .unreadable index => [(0x0C, 2, index.toNat)]

/-- The table of a COMPLETION: header and body (R192). -/
def completionContents (c : Completion) : List Content :=
  [(0x00, 1, 0x81), (0x01, 1, c.status.code), (0x02, 2, c.tag.toNat), (0x04, 1, c.ring.val), (0x05, 1, c.station.toNat)] ++
    bodyContents c.body

/-- The table of a NOTICE of a station as captured (R193). -/
def noticeContents (id : StationId) (c : Station) : List Content :=
  [ (0x00, 1, 0x82), (0x04, 1, 0xFF), (0x05, 1, id.val), (0x08, 2, c.pendingSet.toNat), (0x0A, 1, c.loop.code),
    (0x0B, 1, if c.lastFrame = none then 0 else 1), (0x0C, 4, (c.lastFrame.getD 0).toNat), (0x10, 2, c.newest.i),
    (0x12, 2, c.newest.g), (0x14, 2, c.newest.l) ]

/-- The fields of a profile with their 2-byte or 4-byte slots in the snapshot, by id (R194). -/
def profileContents (p : Profile) : List Content :=
  ([ p.innerLo, p.innerHi, p.outerLo, p.outerHi, p.rushLo, p.rushHi, p.pace.code, p.damp, p.intMin, p.intMax, p.gainMax,
      p.lvlMin, p.lvlMax, p.order.code, p.quantum, p.extMax, p.colLo, p.colHi, p.rowLo, p.rowHi ].zipIdx.map fun x =>
    (0xA0 + 2 * x.2, 2, x.1)) ++
  ((List.finRange 8).map fun r => (0xC8 + 4 * r.val, 4, (p.weightRows[r]).toNat)) ++
  ([ p.clipLimit, p.clipCellsMax, p.gapLimit, p.gapPolicy.code, p.inflight.code, p.noticeMask.toNat ].zipIdx.map fun x =>
    (0xE8 + 2 * x.2, 2, x.1))

/-- The table of a snapshot: the head, the armed sets in list order, the counters, the history from the oldest entry on,
the profile (R194). -/
def snapshotContents (id : StationId) (state : StationState) (c : Station) (sets : Vector StagingSet 8) : List Content :=
  [ (0x00, 1, id.val), (0x01, 1, state.code), (0x02, 1, c.homeRing.val), (0x03, 1, c.noticeRing.val),
    (0x04, 2, c.frameLines), (0x06, 1, c.applyDelay), (0x07, 1, c.loop.code),
    (0x08, 1, (if c.lastFrame = none then 0 else 1) + (if c.lastMean = none then 0 else 2) +
      (if c.lastCompensated = none then 0 else 4) + if c.lastClip = none then 0 else 8),
    (0x09, 1, if c.noticeArmed then 1 else 0), (0x0A, 2, c.pendingSet.toNat), (0x0C, 4, (c.lastFrame.getD 0).toNat),
    (0x10, 2, c.lastMean.getD 0xFFFF), (0x12, 2, c.lastCompensated.getD 0xFFFF), (0x14, 2, c.lastClip.getD 0xFFFF),
    (0x16, 1, (c.older ++ [c.newest]).length), (0x17, 1, c.armed.length), (0x28, 4, c.measures.toNat),
    (0x2C, 4, c.decisions.toNat), (0x30, 4, c.skipped.toNat) ] ++
  ((c.armed.take 2).zipIdx.flatMap fun x =>
    [(0x18 + 8 * x.2, 1, x.1.val), (0x1C + 8 * x.2, 4, (sets[x.1]).frame.toNat)]) ++
  (((c.older ++ [c.newest]).take 5).zipIdx.flatMap fun x =>
    let place := 0x38 + 20 * x.2
    [ (place, 4, (x.1.effective.getD 0).toNat), (place + 0x04, 1, if x.1.effective = none then 1 else 0),
      (place + 0x05, 1, x.1.span), (place + 0x06, 2, x.1.i), (place + 0x08, 2, x.1.g), (place + 0x0A, 2, x.1.l),
      (place + 0x0C, 6, x.1.product) ]) ++
  profileContents c.profile

/-! ## Profiles by field (chapter 6) -/

/-- The value of a field in the encoding of R191. -/
def Profile.value (p : Profile) : Field → Nat
  | .innerLo => p.innerLo
  | .innerHi => p.innerHi
  | .outerLo => p.outerLo
  | .outerHi => p.outerHi
  | .rushLo => p.rushLo
  | .rushHi => p.rushHi
  | .pace => p.pace.code
  | .damp => p.damp
  | .intMin => p.intMin
  | .intMax => p.intMax
  | .gainMax => p.gainMax
  | .lvlMin => p.lvlMin
  | .lvlMax => p.lvlMax
  | .order => p.order.code
  | .quantum => p.quantum
  | .extMax => p.extMax
  | .colLo => p.colLo
  | .colHi => p.colHi
  | .rowLo => p.rowLo
  | .rowHi => p.rowHi
  | .weightRow r => (p.weightRows[r]).toNat
  | .clipLimit => p.clipLimit
  | .clipCellsMax => p.clipCellsMax
  | .gapLimit => p.gapLimit
  | .gapPolicy => p.gapPolicy.code
  | .inflight => p.inflight.code
  | .noticeMask => p.noticeMask.toNat

/-- A row of the profile catalogue: id, field, least and greatest accepted value, default (R96, R191). -/
structure CatalogueRow where
  id : Nat
  field : Field
  least : Nat
  greatest : Nat
  default : Nat

/-- The profile catalogue (R96), its values in the encodings of R191. -/
def catalogue : List CatalogueRow :=
  [ ⟨0x01, .innerLo, 0, 4095, 1700⟩, ⟨0x02, .innerHi, 0, 4095, 1900⟩, ⟨0x03, .outerLo, 0, 4095, 1500⟩,
    ⟨0x04, .outerHi, 0, 4095, 2100⟩, ⟨0x05, .rushLo, 0, 4095, 600⟩, ⟨0x06, .rushHi, 0, 4095, 3400⟩,
    ⟨0x07, .pace, 0, 2, 2⟩, ⟨0x08, .damp, 1, 16, 8⟩, ⟨0x09, .intMin, 1, 65535, 1⟩, ⟨0x0A, .intMax, 1, 65535, 65535⟩,
    ⟨0x0B, .gainMax, 16, 1023, 256⟩, ⟨0x0C, .lvlMin, 1, 256, 1⟩, ⟨0x0D, .lvlMax, 1, 256, 256⟩, ⟨0x0E, .order, 0, 5, 1⟩,
    ⟨0x0F, .quantum, 0, 4095, 0⟩, ⟨0x10, .extMax, 0, 7, 0⟩, ⟨0x11, .colLo, 0, 7, 0⟩, ⟨0x12, .colHi, 0, 7, 7⟩,
    ⟨0x13, .rowLo, 0, 7, 0⟩, ⟨0x14, .rowHi, 0, 7, 7⟩ ] ++
  ((List.finRange 8).map fun r => ⟨0x20 + r.val, .weightRow r, 0, 0xFFFFFFFF, 0x11111111⟩) ++
  [ ⟨0x30, .clipLimit, 1, 255, 240⟩, ⟨0x31, .clipCellsMax, 0, 64, 64⟩, ⟨0x32, .gapLimit, 1, 255, 8⟩,
    ⟨0x33, .gapPolicy, 0, 1, 0⟩, ⟨0x34, .inflight, 0, 1, 0⟩, ⟨0x35, .noticeMask, 0, 0x1FF, 0x1FF⟩ ]

/-- The relation of a number 1 … 9 (R97). -/
def Relation (p : Profile) : Nat → Prop
  | 1 => p.outerLo ≤ p.innerLo
  | 2 => p.innerLo < p.innerHi
  | 3 => p.innerHi ≤ p.outerHi
  | 4 => p.rushLo ≤ p.outerLo
  | 5 => p.rushHi ≥ p.outerHi
  | 6 => p.intMin ≤ p.intMax
  | 7 => p.lvlMin ≤ p.lvlMax
  | 8 => p.colLo ≤ p.colHi
  | 9 => p.rowLo ≤ p.rowHi
  | _ => True

/-! ## Sound states -/

/-- Every work ring's posted index is at most its size ahead of its taken index; sizes, weights and the run counter stay
in range, and the pointer names a station ring (R118, R119, R120, R124). -/
structure WorkRingsSound (s : State) : Prop where
  pointer : s.pointer ≠ 0
  run : s.runCounter ≤ 8
  posted : ∀ (n : WorkRingId) (w : WorkRing), s.workRings[n] = some w → (w.posted - w.taken).toNat ≤ w.size
  weight : ∀ (n : WorkRingId) (w : WorkRing), s.workRings[n] = some w →
    (n = 0 → w.weight = none) ∧ (n ≠ 0 → ∃ k, w.weight = some k ∧ 1 ≤ k ∧ k ≤ 8)

/-- A ring's in-flight count is the number of slots holding its tasks, at most 1 for the control ring and 4 for a station
ring, and a task's ring is present (R132). -/
structure TaskTableSound (s : State) : Prop where
  present : ∀ (k : SlotId) (t : Task), s.slots[k] = some t → s.workRings[t.ring] ≠ none
  counted : ∀ (n : WorkRingId) (w : WorkRing), s.workRings[n] = some w →
    w.inFlight = (List.finRange 8).countP fun k => ((s.slots[k]).map Task.ring) == some n
  limited : ∀ (n : WorkRingId) (w : WorkRing), s.workRings[n] = some w → w.inFlight ≤ if n = 0 then 1 else 4

/-- The ring indexes of the result writes of a ring in flight, in order of issue. -/
def writesOf (s : State) (n : ResultRingId) : List RingIndex := s.transfers.filterMap (Transfer.resultIndex n)

/-- Unreleased records and reserved slots together never exceed a result ring's size, and the produced index lies between
the released and the placed index (R143, R146). The writes of a ring in flight stand at rising indexes from its produced
to its placed index (R145, R146), an ABSENT ring has none, and each belongs to a writer bound to the ring: a completion to
a task in WRITING of a work ring bound to it, one for each slot, and a NOTICE to a station that notifies on it, its mark
set (R131, R155). -/
structure ResultRingsSound (s : State) : Prop where
  held : ∀ u : Setup, s.heldSetup = some u → u.resultSize ≤ 1024
  size : ∀ (n : ResultRingId) (q : ResultRing), s.resultRings[n] = some q → q.size ≤ 1024
  room : ∀ (n : ResultRingId) (q : ResultRing), s.resultRings[n] = some q →
    (q.placed - q.released).toNat + q.reserved ≤ q.size
  order : ∀ (n : ResultRingId) (q : ResultRing), s.resultRings[n] = some q →
    (q.produced - q.released).toNat ≤ (q.placed - q.released).toNat
  rising : ∀ (n : ResultRingId) (q : ResultRing), s.resultRings[n] = some q →
    (writesOf s n).Pairwise fun i j => (i - q.released).toNat < (j - q.released).toNat
  between : ∀ (n : ResultRingId) (q : ResultRing), s.resultRings[n] = some q → ∀ i ∈ writesOf s n,
    (q.produced - q.released).toNat ≤ (i - q.released).toNat ∧ (i - q.released).toNat < (q.placed - q.released).toNat
  absent : ∀ n : ResultRingId, s.resultRings[n] = none → writesOf s n = []
  completion : ∀ x ∈ s.transfers, ∀ k n i, x.kind = .completion k n i →
    ∃ t w record c image, s.slots[k] = some t ∧ t.phase = .writing record c image ∧ s.workRings[t.ring] = some w ∧
      w.resultRing = n
  single : s.transfers.Pairwise fun x y => ∀ k n i m j, x.kind = .completion k n i → y.kind ≠ .completion k m j
  notice : ∀ x ∈ s.transfers, ∀ id n i, x.kind = .notice id n i →
    ∃ c, (s.stations[id]).station = some c ∧ c.noticeRing = n ∧ c.noticeInFlight = true

/-- OFF and STARTING hold no task, ring, station or set; QUIESCED and HALTED hold no task (R2, R132, R164). -/
structure StoppedEmpty (s : State) : Prop where
  slots : s.controller ≠ .running → s.controller ≠ .quiescing → ∀ k : SlotId, s.slots[k] = none
  blocks : s.controller = .off ∨ s.controller = .starting →
    (∀ n : WorkRingId, s.workRings[n] = none) ∧ (∀ n : ResultRingId, s.resultRings[n] = none) ∧
      (∀ id : StationId, s.stations[id] = .free) ∧ ∀ i : SetId, s.sets[i] = .free

/-- No set holds a field twice, and the sets together hold at most the pool's 24 blocks (R100, R101). -/
structure PoolSound (s : State) : Prop where
  once : ∀ i : SetId, ((s.sets[i]).items.map (·.1)).Nodup
  fits : (s.sets.toList.map fun x => (x.items.length + 7) / 8).sum ≤ 24

/-- The armed lists: each holds at most 2 sets, ARMED for its station by its home ring, with distinct effective frames of
which the second is not the earlier one, and every ARMED set stands in the list of its station (R108). -/
structure ArmedSound (s : State) : Prop where
  short : ∀ (id : StationId) (c : Station), (s.stations[id]).station = some c → c.armed.length ≤ 2 ∧ c.armed.Nodup
  member : ∀ (id : StationId) (c : Station), (s.stations[id]).station = some c → ∀ i ∈ c.armed,
    ∃ items frame, s.sets[i] = .armed c.homeRing items id frame
  order : ∀ (id : StationId) (c : Station), (s.stations[id]).station = some c → ∀ i j, c.armed = [i, j] →
    (s.sets[i]).frame ≠ (s.sets[j]).frame ∧ frameAfter (s.sets[i]).frame (s.sets[j]).frame = false
  listed : ∀ (i : SetId) (owner : WorkRingId) (items : List Item) (id : StationId) (frame : Frame),
    s.sets[i] = .armed owner items id frame → ∃ c, (s.stations[id]).station = some c ∧ i ∈ c.armed

/-- The nine relations of R97. -/
structure ConsistentProfile (p : Profile) : Prop where
  r1 : p.outerLo ≤ p.innerLo
  r2 : p.innerLo < p.innerHi
  r3 : p.innerHi ≤ p.outerHi
  r4 : p.rushLo ≤ p.outerLo
  r5 : p.rushHi ≥ p.outerHi
  r6 : p.intMin ≤ p.intMax
  r7 : p.lvlMin ≤ p.lvlMax
  r8 : p.colLo ≤ p.colHi
  r9 : p.rowLo ≤ p.rowHi

/-- Every OPEN or CLOSING station's profile is consistent (R97). -/
def ProfilesSound (s : State) : Prop :=
  ∀ (id : StationId) (c : Station), (s.stations[id]).station = some c → ConsistentProfile c.profile

/-- The catalogue range of a profile field whose value is a number that the regulation computes with (R96). -/
structure ProfileInRange (p : Profile) : Prop where
  bands : p.innerLo ≤ 4095 ∧ p.innerHi ≤ 4095 ∧ p.outerLo ≤ 4095 ∧ p.outerHi ≤ 4095 ∧ p.rushLo ≤ 4095 ∧ p.rushHi ≤ 4095
  damp : 1 ≤ p.damp ∧ p.damp ≤ 16
  integration : 1 ≤ p.intMin ∧ p.intMin ≤ 65535 ∧ 1 ≤ p.intMax ∧ p.intMax ≤ 65535
  gain : 16 ≤ p.gainMax ∧ p.gainMax ≤ 1023
  level : 1 ≤ p.lvlMin ∧ p.lvlMin ≤ 256 ∧ 1 ≤ p.lvlMax ∧ p.lvlMax ≤ 256
  frames : p.quantum ≤ 4095 ∧ p.extMax ≤ 7
  window : p.colLo ≤ 7 ∧ p.colHi ≤ 7 ∧ p.rowLo ≤ 7 ∧ p.rowHi ≤ 7
  clip : 1 ≤ p.clipLimit ∧ p.clipLimit ≤ 255 ∧ p.clipCellsMax ≤ 64
  gap : 1 ≤ p.gapLimit ∧ p.gapLimit ≤ 255

/-- A history entry holds its product and values in the device-wide ranges, and a span of 1 to 8 (R61). -/
structure EntrySound (e : Entry) : Prop where
  product : e.product = e.i * e.g * e.l
  i : 1 ≤ e.i ∧ e.i ≤ 65535
  g : 16 ≤ e.g ∧ e.g ≤ 1023
  l : 1 ≤ e.l ∧ e.l ≤ 256
  span : 1 ≤ e.span ∧ e.span ≤ 8

/-- Every station regulates within the device-wide ranges, and every staged value lies in its field's range (R61, R96). -/
structure RegulationSound (s : State) : Prop where
  lines : ∀ (id : StationId) (c : Station), (s.stations[id]).station = some c → 16 ≤ c.frameLines ∧ c.frameLines ≤ 65535
  delay : ∀ (id : StationId) (c : Station), (s.stations[id]).station = some c → 1 ≤ c.applyDelay ∧ c.applyDelay ≤ 4
  profile : ∀ (id : StationId) (c : Station), (s.stations[id]).station = some c → ProfileInRange c.profile
  entry : ∀ (id : StationId) (c : Station), (s.stations[id]).station = some c → ∀ e ∈ c.older ++ [c.newest], EntrySound e
  item : ∀ i : SetId, ∀ it ∈ (s.sets[i]).items, it.1.range.1 ≤ it.2.toNat ∧ it.2.toNat ≤ it.1.range.2

/-- A halted device at rest: no task, and nothing in flight but write-backs (R140, R167). -/
structure AtRestHalted (s : State) : Prop where
  halted : s.controller = .halted
  slots : ∀ k : SlotId, s.slots[k] = none
  writeBacks : ∀ x ∈ s.transfers, x.isWriteBack = true

end Sys2Proof.Machine
end

