-- ==== Sys2Proof/Certificates/Slice0/Obligations.lean ====
section
/-! DEFINITION. The statements about the UZN-610 that the provers are asked for: what each command does (with everything
it leaves unchanged), what the regulation arithmetic guarantees, and what every step keeps. -/
open Sys2Proof Sys2Proof.Machine

/-! ## The step -/

/-- A step executes the command at the front of the queue on the state with the queue's rest; with an empty queue the
device idles (the model's reading of a block that takes commands: log entry 4). -/
def Obligations.StepRunsFrontCommand : Prop :=
  (∀ (c : Instr) (rest : List Instr) (s : State), s.pending = c :: rest → step s = exec c { s with pending := rest }) ∧
    ∀ s : State, s.pending = [] → step s = .next s

/-! ## Resets and the controller -/

/-- R171: power-on reset and pin reset take the device to OFF with every block, CTRL, SETUP_LO, SETUP_HI, CAUSE and MASK
at their reset values, abandoning the transfers in flight; IDENT keeps its value; the reset cause changes only here and at
soft reset. The link and its configuration, the internal write-back address and the model's count of epochs are
left open (log entries 2, 3, 14 and 20). -/
def Obligations.ResetsClearTheDevice : Prop :=
  (∀ s : State, ∃ m d link up wb ep, exec .powerOnReset s = .next { State.reset with
      resetCause := .powerOn, pending := s.pending, messages := s.messages, hostMemory := m, draws := d, link := link,
      linkIsUp := up, writeBackAddress := wb, epoch := ep } ∧ Torn s.transfers s.hostMemory m) ∧
    (∀ s : State, ∃ m d link up wb ep, exec .pinReset s = .next { State.reset with
      resetCause := .pin, pending := s.pending, messages := s.messages, hostMemory := m, draws := d, link := link,
      linkIsUp := up, writeBackAddress := wb, epoch := ep } ∧ Torn s.transfers s.hostMemory m) ∧
    (∀ s : State, s.readRegister 0x000#12 = 0x06102C01#32) ∧
    ∀ (c : Instr) (s t : State), exec c s = .next t → t.resetCause ≠ s.resetCause →
      c = .powerOnReset ∨ c = .pinReset ∨ ∃ v, ctrlWriteOf c = some v ∧ v.getLsbD 2 = true

/-- R169, R170, R160: a CTRL write with SOFT_RESET 1, in every state, or with ENABLE 0 outside OFF, tears everything down and
abandons every transfer. Soft reset also clears CTRL, CAUSE and MASK, the halt cause and the last rejection, with reset
cause SOFT and no message; enable-off keeps all of these and stores QUIESCE, which is all ENABLE 0 does in OFF. The model's
count of epochs rises with each teardown (log entry 20). -/
def Obligations.TeardownWrites : Prop :=
  (∀ (s : State) (v : Register), s.link.memorySpace = true → v.getLsbD 2 = true →
     ∃ m d, exec (.softReset v) s = .next { tornDown s m d with
         quiesceBit := false, cause := 0, mask := 0, haltCause := .none, rejection := ⟨0, .none, 0⟩,
         resetCause := .soft } ∧ Torn s.transfers s.hostMemory m) ∧
  ∀ (s : State) (v : Register), s.link.memorySpace = true → v.getLsbD 2 = false → v.getLsbD 0 = false →
    (s.controller ≠ .off → ∃ m d, exec (.enableOff v) s = .next { tornDown s m d with quiesceBit := v.getLsbD 1 } ∧
      Torn s.transfers s.hostMemory m) ∧
    (s.controller = .off → exec (.enableOff v) s = .next { s with quiesceBit := v.getLsbD 1 })

/-- R161: ENABLE written 1 in OFF begins start-up: the setup block is read when its address is a multiple of 64, else the
controller halts with SETUP_INVALID in the same event. -/
def Obligations.StartUpBegins : Prop :=
  ∀ (s : State) (v : Register), s.link.memorySpace = true → v.getLsbD 2 = false → v.getLsbD 0 = true →
    s.controller = .off →
    ((s.setupHi.toNat * 2 ^ 32 + s.setupLo.toNat) % 64 = 0 → exec (.startUp v) s = .next { s with
        controller := .starting
        haltCause := .none
        quiesceBit := v.getLsbD 1
        transfers := s.transfers ++
          [requested s .setupRead (BitVec.ofNat 64 (s.setupHi.toNat * 2 ^ 32 + s.setupLo.toNat)) (.read 64)] }) ∧
    ((s.setupHi.toNat * 2 ^ 32 + s.setupLo.toNat) % 64 ≠ 0 → ∃ m d, exec (.startUp v) s =
        .next (haltedAs { s with quiesceBit := v.getLsbD 1 } .setupInvalid m d) ∧
      Torn (abandonedByHalt s) s.hostMemory m)

/-- R162, R163, R183: the ends of the setup read and of the zeroing write. An accepted block is held and the zeroing
requested; its end makes work ring 0 and result ring 0 ACTIVE from the held block, the state RUNNING or QUIESCED by
CTRL.QUIESCE, and sets READY (and QUIESCED). A block outside the accepted values, or a failed end, halts. -/
def Obligations.StartUpEnds : Prop :=
  (∀ (s : State) (b : Block64) (x : Transfer) (e : Nat), s.controller = .starting →
     oldest s .setupRead e = some x → x.payload = .read 64 →
     (x.failing = false → SetupInRange b → exec (.setupReadDone b e) s = .next { s with
         heldSetup := some
           { controlBase := BitVec.ofNat 64 (content b 0x08 8), controlSize := content b 0x10 2,
             resultBase := BitVec.ofNat 64 (content b 0x18 8), resultSize := content b 0x20 2,
             resultThreshold := content b 0x22 2, writeBack := BitVec.ofNat 64 (content b 0x28 8) }
         transfers := without s .setupRead e ++
           [requested s .zeroing (BitVec.ofNat 64 (content b 0x28 8)) (.write (List.replicate 32 0))] }) ∧
     (x.failing = false → ¬SetupInRange b → ∃ m d, exec (.setupReadDone b e) s =
         .next (haltedAs { s with transfers := without s .setupRead e } .setupInvalid m d) ∧
       Torn (abandonedByHalt s) s.hostMemory m) ∧
     ∃ m d, exec (.setupReadFault e) s =
         .next (haltedAs { s with transfers := without s .setupRead e } .setupReadFault m d) ∧
       Torn (abandonedByHalt s) s.hostMemory m) ∧
  ∀ (s : State) (u : Setup) (x : Transfer) (e : Nat) (data : List Byte), s.controller = .starting → s.heldSetup = some u →
    oldest s .zeroing e = some x → x.payload = .write data →
    (x.failing = false → exec (.writebackZeroingDone e) s = .next { s with
        controller := if s.quiesceBit then .quiesced else .running
        heldSetup := none
        writeBackAddress := u.writeBack
        workRings := s.workRings.set 0 (some
          { state := .active, base := u.controlBase, size := u.controlSize, resultRing := 0, weight := none, posted := 0,
            taken := 0, written := 0, inFlight := 0 })
        resultRings := s.resultRings.set 0 (some
          { base := u.resultBase, size := u.resultSize, threshold := u.resultThreshold, placed := 0, produced := 0,
            released := 0, reserved := 0, unsignalled := 0 })
        cause := s.cause ||| if s.quiesceBit then 0x30#8 else 0x10#8
        messages := messagesAfter s (s.cause ||| if s.quiesceBit then 0x30#8 else 0x10#8) s.mask
        transfers := without s .zeroing e
        hostMemory := Memory.writeBytes s.hostMemory x.address data }) ∧
    ∃ m d, exec (.writebackZeroingFault e) s =
        .next (haltedAs { s with transfers := without s .zeroing e } .writebackFault m d) ∧
      Torn (x :: abandonedByHalt s) s.hostMemory m

/-- R165, R160, R164, R168: QUIESCE written from 0 to 1 in RUNNING takes the controller to QUIESCING, or with an empty
task table at once to QUIESCED with its cause; in every other state but OFF, and where QUIESCE is already 1, the write
stores QUIESCE and changes nothing else. -/
def Obligations.QuiesceStopsTakes : Prop :=
  ∀ (s : State) (v : Register), s.link.memorySpace = true → v.getLsbD 2 = false → v.getLsbD 0 = true →
    v.getLsbD 1 = true →
    (s.controller = .running → s.quiesceBit = false → (∀ k : SlotId, s.slots[k] = none) →
      exec (.quiesce v) s = .next { s with
        controller := .quiesced
        quiesceBit := true
        cause := s.cause ||| 0x20#8
        messages := messagesAfter s (s.cause ||| 0x20#8) s.mask }) ∧
    (s.controller = .running → s.quiesceBit = false → (∃ k : SlotId, s.slots[k] ≠ none) →
      exec (.quiesce v) s = .next { s with controller := .quiescing, quiesceBit := true }) ∧
    (s.controller ≠ .off → s.controller ≠ .running ∨ s.quiesceBit = true →
      exec (.quiesce v) s = .next { s with quiesceBit := true })

/-- R166, R156, R148, R155, R160: QUIESCE written from 1 to 0 in QUIESCING or QUIESCED returns the controller to RUNNING,
and in that event every ring's unreserved free slots go to the stations waiting on it, in ascending id: each served is
captured and cleared, and its record takes the next ring index, with its NOTICE write in flight; the rest keep waiting
(rings of a size R142 allows; their order in the event is log entry 5's). In OFF the write begins start-up; elsewhere it is
only stored. -/
def Obligations.QuiesceClearResumes : Prop :=
  ∀ (s : State) (v : Register), s.link.memorySpace = true → v.getLsbD 2 = false → v.getLsbD 0 = true →
    v.getLsbD 1 = false →
    (s.controller = .quiescing ∨ s.controller = .quiesced → s.quiesceBit = true →
      (∀ (n : ResultRingId) (q : ResultRing), s.resultRings[n] = some q → q.size ≤ 1024) →
      exec (.quiesceClear v) s =
        .next (afterOffers { s with controller := .running, quiesceBit := false } (List.finRange 4))) ∧
    (s.controller = .starting ∨ s.controller = .running ∨ s.controller = .halted →
      exec (.quiesceClear v) s = .next { s with quiesceBit := false }) ∧
    (s.controller = .quiescing ∨ s.controller = .quiesced → s.quiesceBit = false →
      exec (.quiesceClear v) s = .next s) ∧
    (s.controller = .off → exec (.quiesceClear v) s = exec (.startUp v) s)

/-- R159 to R170: the controller states that one event can lead to, from each state, whatever the command. -/
def Obligations.ControllerMoves : Prop :=
  ∀ (c : Instr) (s t : State), exec c s = .next t → t.controller ∈ mayBecome s.controller

/-- R168, R182: a halted device at rest stays so under every command but a CTRL write and a hard reset: contexts, sets,
the halt cause, the pointer and the run counter are kept, no task appears, and nothing but write-backs is in flight. -/
def Obligations.HaltedKeepsItsState : Prop :=
  ∀ (c : Instr) (s t : State), AtRestHalted s → ctrlWriteOf c = none → c ≠ .powerOnReset → c ≠ .pinReset →
    exec c s = .next t →
      AtRestHalted t ∧ t.haltCause = s.haltCause ∧ t.stations = s.stations ∧ t.sets = s.sets ∧ t.pointer = s.pointer ∧
        t.runCounter = s.runCounter

/-! ## The register window -/

/-- R120, R188: the checks of a POST_WORK write in their order, and its effect when it passes. -/
def Obligations.PostWorkChecks : Prop :=
  ∀ (s : State) (v : Register), s.link.memorySpace = true → v.extractLsb' 20 4 = 1#4 →
    ((v.extractLsb' 16 4).toNat ≥ 8 → exec (.postWork v) s = .next (rejectedAs s v .noRing)) ∧
    ∀ n : WorkRingId, (v.extractLsb' 16 4).toNat = n.val →
      (s.workRings[n] = none → exec (.postWork v) s = .next (rejectedAs s v .noRing)) ∧
      ∀ w, s.workRings[n] = some w →
        (w.size < (v.extractLsb' 0 16 - w.taken).toNat → exec (.postWork v) s = .next (rejectedAs s v .overrun)) ∧
        ((v.extractLsb' 0 16 - w.taken).toNat ≤ w.size → w.size < (v.extractLsb' 0 16 - w.posted).toNat →
          exec (.postWork v) s = .next (rejectedAs s v .regress)) ∧
        ((v.extractLsb' 0 16 - w.taken).toNat ≤ w.size → (v.extractLsb' 0 16 - w.posted).toNat ≤ w.size →
          exec (.postWork v) s = .next
            { s with workRings := s.workRings.set n (some { w with posted := v.extractLsb' 0 16 }) })

/-- R147, R148, R155, R156, R188: the checks of a RELEASE_RESULT write in their order; an accepted one moves the released
index, and while the controller is RUNNING or QUIESCING the ring's unreserved free slots go in that event to the stations
waiting on it, in ascending id: each served is captured and cleared, and its record takes the next ring index, with its
NOTICE write in flight; the rest keep waiting (a ring of a size R142 allows). -/
def Obligations.ReleaseResultChecks : Prop :=
  ∀ (s : State) (v : Register), s.link.memorySpace = true → v.extractLsb' 20 4 = 2#4 →
    ((v.extractLsb' 16 4).toNat ≥ 4 → exec (.releaseResult v) s = .next (rejectedAs s v .noRing)) ∧
    ∀ n : ResultRingId, (v.extractLsb' 16 4).toNat = n.val →
      (s.resultRings[n] = none → exec (.releaseResult v) s = .next (rejectedAs s v .noRing)) ∧
      ∀ q, s.resultRings[n] = some q →
        (1 ≤ (v.extractLsb' 0 16 - q.produced).toNat → (v.extractLsb' 0 16 - q.produced).toNat ≤ q.size →
          exec (.releaseResult v) s = .next (rejectedAs s v .overrun)) ∧
        (v.extractLsb' 0 16 = q.produced ∨ q.size < (v.extractLsb' 0 16 - q.produced).toNat →
          ((q.produced - q.released).toNat < (v.extractLsb' 0 16 - q.released).toNat →
            exec (.releaseResult v) s = .next (rejectedAs s v .regress)) ∧
          ((v.extractLsb' 0 16 - q.released).toNat ≤ (q.produced - q.released).toNat →
            (v.extractLsb' 0 16 = q.released → exec (.releaseResult v) s = .next s) ∧
            (v.extractLsb' 0 16 ≠ q.released → s.controller = .running ∨ s.controller = .quiescing → q.size ≤ 1024 →
              exec (.releaseResult v) s = .next (afterOffers
                { s with resultRings := s.resultRings.set n (some { q with released := v.extractLsb' 0 16 }) } [n])) ∧
            (v.extractLsb' 0 16 ≠ q.released → s.controller ≠ .running → s.controller ≠ .quiescing →
              exec (.releaseResult v) s = .next
                { s with resultRings := s.resultRings.set n (some { q with released := v.extractLsb' 0 16 }) })))

/-- R172, R173, R174, R188: a POST write of an operation other than 1 and 2 is rejected with BAD_OPERATION; a CAUSE write
clears the bits written 1 and sends nothing; a MASK write stores the mask and sends the message where that makes the
signalled set non-empty. -/
def Obligations.RejectionCauseAndMaskWrites : Prop :=
  (∀ (s : State) (v : Register), s.link.memorySpace = true → v.extractLsb' 20 4 ≠ 1#4 → v.extractLsb' 20 4 ≠ 2#4 →
     exec (.badOperation v) s = .next { s with
       rejection := { operation := v.extractLsb' 20 4, reason := .badOperation, ringId := v.extractLsb' 16 4 }
       cause := s.cause ||| 0x80#8
       messages := messagesAfter s (s.cause ||| 0x80#8) s.mask }) ∧
  ∀ (s : State) (v : Register), s.link.memorySpace = true →
    (∃ t, exec (.causeClear v) s = .next t ∧ t = { s with cause := t.cause } ∧
      ∀ b < 8, t.cause.getLsbD b = (s.cause.getLsbD b && !v.getLsbD b)) ∧
    exec (.maskWrite v) s = .next
      { s with mask := v.extractLsb' 0 8, messages := messagesAfter s s.cause (v.extractLsb' 0 8) }

/-- R173, R195: whatever the command, the interrupt message is sent exactly when the signalled set goes from empty to
non-empty, once, with the configured address and data, while message interrupts and bus mastering are enabled. That a link
that is down does not stop it is the model's choice (log entry 13). -/
def Obligations.MessageAtTheEdge : Prop :=
  ∀ (c : Instr) (s t : State), exec c s = .next t → t.messages = messagesAfter s t.cause t.mask

/-- R187, R195: what a write anywhere in the window does: a partial or misaligned one, one to IDENT, STATUS or an offset
from 0x20 up, and any while the memory-space enable is 0, changes nothing; the others act on the register they name. That an aligned write of more than 32 bits below 0x20 changes
nothing too is the model's choice (log entry 24). -/
def Obligations.WindowWrites : Prop :=
  (∀ (s : State) (offset : BitVec 12) (bytes : Nat) (v : Register), bytes ≠ 4 ∨ offset.toNat % 4 ≠ 0 →
    exec (.registerWrite offset bytes v) s = .next s) ∧
  (∀ (s : State) (offset : BitVec 12) (v : Register), offset = 0x000#12 ∨ offset = 0x008#12 ∨ 0x20 ≤ offset.toNat →
    exec (.registerWrite offset 4 v) s = .next s) ∧
  (∀ (s : State) (v : Register), s.link.memorySpace = true →
    exec (.registerWrite 0x00C#12 4 v) s = .next { s with setupLo := v } ∧
    exec (.registerWrite 0x010#12 4 v) s = .next { s with setupHi := v } ∧
    exec (.registerWrite 0x004#12 4 v) s = exec (.startUp v) s ∧
    exec (.registerWrite 0x014#12 4 v) s = exec (.postWork v) s ∧
    exec (.registerWrite 0x018#12 4 v) s = exec (.causeClear v) s ∧
    exec (.registerWrite 0x01C#12 4 v) s = exec (.maskWrite v) s) ∧
  ∀ (s : State) (offset : BitVec 12) (bytes : Nat) (v : Register), s.link.memorySpace = false →
    ∀ c ∈ [Instr.softReset v, .startUp v, .enableOff v, .quiesce v, .quiesceClear v, .postWork v, .releaseResult v,
        .badOperation v, .causeClear v, .maskWrite v, .registerWrite offset bytes v], exec c s = .next s

/-- R159, R160, R172 to R175, R187, R195: what the window reads. CTRL: ENABLE 1 exactly outside OFF, QUIESCE as stored,
SOFT_RESET 0. STATUS: the codes of the controller state, reset cause, halt cause and last rejection in their fields. IDENT,
SETUP_LO, SETUP_HI, CAUSE and MASK as they stand; POST, every offset from 0x20 up and every bit that no field names 0. A
read of fewer than 32 bits returns the addressed bytes of its register; with the memory-space enable 0 no read returns
anything. What a read below 0x20 that is not within one register returns is left open (log entry 23). -/
def Obligations.CtrlAndStatusRead : Prop :=
  ∀ s : State,
    ((s.readRegister 0x004#12).getLsbD 0 = true ↔ s.controller ≠ .off) ∧
    (s.readRegister 0x004#12).getLsbD 1 = s.quiesceBit ∧ (s.readRegister 0x004#12).toNat < 4 ∧
    registerBits (s.readRegister 0x008#12) 0 4 = (match s.controller with
      | .off => 0 | .starting => 1 | .running => 2 | .quiescing => 3 | .quiesced => 4 | .halted => 5) ∧
    registerBits (s.readRegister 0x008#12) 4 4 = (match s.resetCause with | .powerOn => 0 | .pin => 1 | .soft => 2) ∧
    registerBits (s.readRegister 0x008#12) 8 4 = (match s.haltCause with
      | .none => 0 | .setupInvalid => 1 | .setupReadFault => 2 | .writebackFault => 3 | .resultWriteFault => 4) ∧
    registerBits (s.readRegister 0x008#12) 12 4 = 0 ∧
    registerBits (s.readRegister 0x008#12) 16 4 = s.rejection.operation.toNat ∧
    registerBits (s.readRegister 0x008#12) 20 4 = (match s.rejection.reason with
      | .none => 0 | .noRing => 1 | .overrun => 2 | .regress => 3 | .badOperation => 4) ∧
    registerBits (s.readRegister 0x008#12) 24 4 = s.rejection.ringId.toNat ∧
    registerBits (s.readRegister 0x008#12) 28 4 = 0 ∧
    s.readRegister 0x000#12 = 0x06102C01#32 ∧ s.readRegister 0x00C#12 = s.setupLo ∧
    s.readRegister 0x010#12 = s.setupHi ∧ s.readRegister 0x014#12 = 0 ∧
    (s.readRegister 0x018#12).toNat = s.cause.toNat ∧ (s.readRegister 0x01C#12).toNat = s.mask.toNat ∧
    (∀ offset : BitVec 12, 0x20 ≤ offset.toNat → s.readRegister offset = 0) ∧
    (∀ (offset : BitVec 12) (bytes : Nat), s.link.memorySpace = true → 1 ≤ bytes → offset.toNat % 4 + bytes ≤ 4 →
      s.readBytes offset bytes = some ((List.range bytes).map fun i =>
        (s.readRegister (offset &&& 0xFFC#12)).extractLsb' (8 * (offset.toNat % 4 + i)) 8)) ∧
    (∀ (offset : BitVec 12) (bytes : Nat), s.link.memorySpace = true → 1 ≤ bytes → 0x20 ≤ offset.toNat →
      offset.toNat + bytes ≤ 0x1000 → s.readBytes offset bytes = some (List.replicate bytes 0)) ∧
    ∀ (offset : BitVec 12) (bytes : Nat), s.link.memorySpace = false → s.readBytes offset bytes = none

/-! ## The host link -/

/-- R176, R195: a link that goes down, or a read that times out, leaves the transfers concerned able only to fail; a link
that comes up, and a write of the configuration space, change nothing but the link's own state. That a doomed transfer
stays in flight until the command of its failed end, and that a cleared bus-master enable leaves the transfers in flight
alone, is the model's deduction (log entry 12). -/
def Obligations.LinkEvents : Prop :=
  ∀ (s : State) (e : Nat),
    exec .linkDown s = .next
      { s with linkIsUp := false, transfers := s.transfers.map fun x => { x with failing := true } } ∧
    exec .linkUp s = .next { s with linkIsUp := true } ∧
    (∀ config, exec (.configurationSpaceWrite config) s = .next { s with link := config }) ∧
    exec (.completionTimeout .setup e) s = .next { s with transfers := s.transfers.map fun x =>
      { x with failing := x.failing || (x.kind == .setupRead && x.epoch == e) } } ∧
    (∀ k, exec (.completionTimeout (.grid k) e) s = .next { s with transfers := s.transfers.map fun x =>
      { x with failing := x.failing || (x.kind == .gridRead k && x.epoch == e) } }) ∧
    ∀ k, exec (.completionTimeout (.record k) e) s = .next { s with transfers := s.transfers.map fun x =>
      { x with failing := x.failing || endsFailed (.recordReadFault k e) x } }

/-- R129, R176, R195 (the model's reading, log entry 1): an execution command for a slot whose task is not QUEUED, waits for an
earlier task of its ring or carries another kind changes nothing (BAD_KIND: a known kind; RECORD_UNREADABLE: a readable
record); neither does an end of a transfer that is not in flight, as the late end of one abandoned in an earlier epoch (log
entry 20), or a done end of one that can only fail. A power-on or pin reset, which abandons every transfer, begins a new
epoch, as a teardown and a halt do (log entry 20). -/
def Obligations.OutOfTurnChangesNothing : Prop :=
  (∀ (s : State) (k : SlotId), ∀ c ∈ [(Instr.queryDevice k, 0x01), (.createWorkRing k, 0x02), (.deleteWorkRing k, 0x03),
       (.createResultRing k, 0x04), (.deleteResultRing k, 0x05), (.openStation k, 0x08), (.closeStation k, 0x09),
       (.readStation k, 0x0A), (.measure k, 0x10), (.freeze k, 0x11), (.thaw k, 0x12), (.reseek k, 0x13),
       (.setActuators k, 0x14), (.ackNotice k, 0x15), (.stageOpen k, 0x18), (.stagePut k, 0x19), (.stageCommit k, 0x1A),
       (.stageDiscard k, 0x1B)],
     (∀ t r, ¬Runs s k t r c.2) → exec c.1 s = .next s) ∧
  (∀ (s : State) (k : SlotId), (∀ t r, Runs s k t r (recordKind r) → recordKind r ∈ [0x01, 0x02, 0x03, 0x04, 0x05, 0x08,
      0x09, 0x0A, 0x10, 0x11, 0x12, 0x13, 0x14, 0x15, 0x18, 0x19, 0x1A, 0x1B]) → exec (.badKind k) s = .next s) ∧
  (∀ (s : State) (k : SlotId), (∀ t, s.slots[k] = some t → t.phase = .queued none →
      ∃ j : SlotId, ∃ u ∈ s.slots[j], u.before t ∧ u.executed = false) → exec (.recordUnreadable k) s = .next s) ∧
  (∀ (c : Instr) (s : State), isEnd c = true → (∀ x ∈ s.transfers, endsDone c x = true → x.failing = true) →
    (∀ x ∈ s.transfers, endsFailed c x = false) → exec c s = .next s) ∧
  ∀ s : State, ∀ c ∈ [Instr.powerOnReset, .pinReset], ∃ t, exec c s = .next t ∧ t.epoch = s.epoch + 1

/-! ## Takes and reads -/

/-- R122 to R125: the arbiter's choice in two tiers and the take, one event; with no eligible ring, nothing. -/
def Obligations.TakeClaimsARecord : Prop :=
  (∀ (s : State) (n p : WorkRingId) (run : Nat) (w : WorkRing) (q : ResultRing) (k : SlotId), s.pointer ≠ 0 →
    Serves s n p run → Eligible s n w q → s.slots[k] = none → (∀ j < k, s.slots[j] ≠ none) →
    exec .take s = .next { s with
      slots := s.slots.set k (some { ring := n, index := w.taken, phase := .reading, grid := .none })
      workRings := s.workRings.set n (some { w with taken := w.taken + 1, inFlight := w.inFlight + 1 })
      resultRings := s.resultRings.set w.resultRing (some { q with reserved := q.reserved + 1 })
      pointer := p
      runCounter := run
      transfers := s.transfers ++ [requested s (.recordRead k n w.taken)
        (w.base + BitVec.ofNat 64 (64 * (w.taken.toNat % w.size))) (.read 64)] }) ∧
    ∀ s : State, (∀ n, ¬CanTake s n) → exec .take s = .next s

/-- R26, R126, R128, R177: a record read ends. Done, the slot holds the record and is FETCHING with its grid read requested,
or QUEUED; failed, it is QUEUED with the unreadable mark and an ACTIVE ring becomes FAULTED. Either way the written taken
index moves to the oldest read of the ring still in flight, and its write-back is issued. -/
def Obligations.RecordReadEnds : Prop :=
  (∀ (s : State) (k : SlotId) (t : Task) (r : Block64) (w : WorkRing) (x : Transfer) (e : Nat), s.slots[k] = some t →
     t.phase = .reading → s.workRings[t.ring] = some w →
     oldest s (.recordRead k t.ring t.index) e = some x → x.payload = .read 64 → x.failing = false →
     let rest := without s (.recordRead k t.ring t.index) e
     let written := (rest.findSome? (Transfer.recordIndex t.ring)).getD w.taken
     let fetches := recordKind r = 0x10 ∧ t.ring ≠ 0 ∧ recordSynth r = false ∧ (1 ≤ recordByte9 r ∧ recordByte9 r ≤ 8) ∧
       (1 ≤ recordByteA r ∧ recordByteA r ≤ 8) ∧ (recordAddress r).toNat % 4 = 0
     (fetches → exec (.recordReadDone k r e) s = .next { s with
       slots := s.slots.set k (some { t with phase := .fetching r, grid := .inFlight })
       workRings := s.workRings.set t.ring (some { w with written := written })
       transfers := rest ++ [requested s (.gridRead k) (recordAddress r) (.read (4 * recordByte9 r * recordByteA r)),
         takenWriteBack s t.ring written] }) ∧
     (¬fetches → exec (.recordReadDone k r e) s = .next { s with
       slots := s.slots.set k (some { t with phase := .queued (some r) })
       workRings := s.workRings.set t.ring (some { w with written := written })
       transfers := rest ++ [takenWriteBack s t.ring written] })) ∧
  ∀ (s : State) (k : SlotId) (t : Task) (w : WorkRing) (x : Transfer) (e : Nat), s.slots[k] = some t → t.phase = .reading →
    s.workRings[t.ring] = some w → oldest s (.recordRead k t.ring t.index) e = some x →
    x.payload = .read 64 →
    let rest := without s (.recordRead k t.ring t.index) e
    let written := (rest.findSome? (Transfer.recordIndex t.ring)).getD w.taken
    exec (.recordReadFault k e) s = .next { s with
      slots := s.slots.set k (some { t with phase := .queued none })
      workRings := s.workRings.set t.ring (some { w with
        state := if w.state = .active then .faulted else w.state, written := written })
      transfers := rest ++ [takenWriteBack s t.ring written] }

/-- R14, R27, R28, R152, R179, R180: a grid read ends done with the C × R cells held, or failed with the grid status FAILED,
the slot QUEUED either way; a snapshot write ends done with the image in the buffer, or failed with the completion's
status turned to BUFFER_FAULT and its body kept. Nothing else changes. -/
def Obligations.GridAndSnapshotEnds : Prop :=
  (∀ (s : State) (k : SlotId) (t : Task) (r : Block64) (x : Transfer) (e : Nat), s.slots[k] = some t →
     t.phase = .fetching r →
     oldest s (.gridRead k) e = some x → (∃ length, x.payload = .read length) →
     (∀ data : List Byte, x.failing = false → data.length = 4 * recordByte9 r * recordByteA r →
       ∃ cells, exec (.gridReadDone k data e) s = .next { s with
           slots := s.slots.set k (some { t with phase := .queued (some r), grid := .held cells })
           transfers := without s (.gridRead k) e } ∧
         cells.length = recordByte9 r * recordByteA r ∧
         ∀ i, i < recordByte9 r * recordByteA r → cells[i]? = some
           { mean := leNat ((data.drop (4 * i)).take 4) % 2 ^ 12
             clip := leNat ((data.drop (4 * i)).take 4) / 2 ^ 16 % 2 ^ 8
             valid := leNat ((data.drop (4 * i)).take 4) / 2 ^ 31 % 2 == 1 }) ∧
     exec (.gridReadFault k e) s = .next { s with
       slots := s.slots.set k (some { t with phase := .queued (some r), grid := .failed })
       transfers := without s (.gridRead k) e }) ∧
  ∀ (s : State) (k : SlotId) (t : Task) (record : Option Block64) (c : Completion) (image : Option (List Byte))
      (x : Transfer) (e : Nat) (data : List Byte), s.slots[k] = some t → t.phase = .writing record c image →
    oldest s (.snapshot k) e = some x → x.payload = .write data →
    (x.failing = false → exec (.snapshotWriteDone k e) s = .next { s with
      transfers := without s (.snapshot k) e, hostMemory := Memory.writeBytes s.hostMemory x.address data }) ∧
    ∃ m d, exec (.snapshotWriteFault k e) s = .next { s with
        slots := s.slots.set k (some { t with phase := .writing record { c with status := .bufferFault } image })
        transfers := without s (.snapshot k) e
        hostMemory := m
        draws := d } ∧ Torn [x] s.hostMemory m

/-! ## Results, write-backs and drains -/

/-- R131, R144, R145, R192: a result write begins when its slot may write: the completion takes the placed index, its
reservation is given back, and its 32 bytes are on their way; a task with an earlier neighbour in the table, or with a
write of its own in flight, waits. The bytes stand as the tables of result records lay them out, with their codes; every
byte no table names is 0. -/
def Obligations.ResultWriteBegins : Prop :=
  (∀ c : Completion, Laid 32 (completionContents c) c.bytes) ∧
  [Status.ok, .badKind, .badField, .noStation, .stationInUse, .stationClosing, .wrongRing, .noRing, .ringExists, .ringInUse,
    .noSet, .notOwner, .setLimit, .noSpace, .armLimit, .armConflict, .profileInvalid, .bufferFault, .gridFault,
    .recordUnreadable].map Status.code = List.range 20 ∧
  [MeasureOutcome.none, .decided, .unchanged, .skippedStale, .skippedPending, .held, .empty].map MeasureOutcome.code =
    List.range 7 ∧
  [LoopState.idle, .seeking, .settled, .pinnedDark, .pinnedBright, .frozen].map LoopState.code = List.range 6 ∧
  [StationState.free, .opened, .closing].map StationState.code = List.range 3 ∧
  [SetState.free, .opened, .armed].map SetState.code = List.range 3 ∧
  ∀ (s : State) (k : SlotId) (t : Task) (record : Option Block64) (c : Completion) (image : Option (List Byte))
      (w : WorkRing) (q : ResultRing), s.slots[k] = some t → t.phase = .writing record c image →
    s.workRings[t.ring] = some w → s.resultRings[w.resultRing] = some q → 1 ≤ q.reserved →
    let mayWrite := (∀ j : SlotId, ∀ u ∈ s.slots[j], u.before t = false) ∧
      ∀ x ∈ s.transfers, x.kind ≠ .snapshot k ∧ ∀ n i, x.kind ≠ .completion k n i
    (mayWrite → exec (.resultWrite k) s = .next { s with
      resultRings := s.resultRings.set w.resultRing (some { q with placed := q.placed + 1, reserved := q.reserved - 1 })
      transfers := s.transfers ++ [requested s (.completion k w.resultRing q.placed)
        (q.base + BitVec.ofNat 64 (32 * (q.placed.toNat % q.size))) (.write c.bytes)] }) ∧
    (¬mayWrite → exec (.resultWrite k) s = .next s)

/-- R131, R146, R157: a completion's write ends done while other tasks stay in the table and none is in DRAIN_WAIT: the
record is in memory, the produced index moves to the oldest write still in flight and is written back, the count rises
and signals at the threshold, the slot is FREE and the work ring's in-flight count falls. -/
def Obligations.CompletionWritten : Prop :=
  ∀ (s : State) (k : SlotId) (t : Task) (ring : ResultRingId) (index : RingIndex) (q : ResultRing) (w : WorkRing)
      (x : Transfer) (e : Nat) (data : List Byte), s.slots[k] = some t → s.workRings[t.ring] = some w →
    s.resultRings[ring] = some q →
    oldestResult s ring index e = some x → x.kind = .completion k ring index →
    x.payload = .write data → x.failing = false → (∃ j, j ≠ k ∧ s.slots[j] ≠ none) →
    (∀ j : SlotId, ∀ u ∈ s.slots[j], u.draining = false) →
    let rest := without s x.kind e
    let produced := (rest.findSome? (Transfer.resultIndex ring)).getD q.placed
    let signals := decide (q.threshold ≤ q.unsignalled + 1)
    exec (.resultWriteDone ring index e) s = .next { s with
      slots := s.slots.set k none
      workRings := s.workRings.set t.ring (some { w with inFlight := w.inFlight - 1 })
      resultRings := s.resultRings.set ring (some
        { q with produced := produced, unsignalled := if signals then 0 else q.unsignalled + 1 })
      cause := if signals then s.cause ||| resultBit ring else s.cause
      messages := if signals then messagesAfter s (s.cause ||| resultBit ring) s.mask else s.messages
      transfers := rest ++ [producedWriteBack s ring produced]
      hostMemory := Memory.writeBytes s.hostMemory x.address data }

/-- R158, R165: the write of the last task's completion ends done: every result ring with an uncounted record is
signalled, and in QUIESCING the controller becomes QUIESCED with its cause, all in that event. -/
def Obligations.LastCompletionWritten : Prop :=
  ∀ (s : State) (k : SlotId) (t : Task) (ring : ResultRingId) (index : RingIndex) (q : ResultRing) (w : WorkRing)
      (x : Transfer) (e : Nat) (data : List Byte), s.slots[k] = some t → s.workRings[t.ring] = some w →
    s.resultRings[ring] = some q →
    oldestResult s ring index e = some x → x.kind = .completion k ring index →
    x.payload = .write data → x.failing = false → (∀ j, j ≠ k → s.slots[j] = none) →
    let rest := without s x.kind e
    let produced := (rest.findSome? (Transfer.resultIndex ring)).getD q.placed
    ∃ cause, exec (.resultWriteDone ring index e) s = .next { s with
        controller := if s.controller = .quiescing then .quiesced else s.controller
        slots := Vector.replicate 8 none
        workRings := s.workRings.set t.ring (some { w with inFlight := w.inFlight - 1 })
        resultRings := Vector.ofFn fun n =>
          if n = ring then some { q with produced := produced, unsignalled := 0 }
          else (s.resultRings[n]).map fun y => { y with unsignalled := 0 }
        cause := cause
        messages := messagesAfter s cause s.mask
        transfers := rest ++ [producedWriteBack s ring produced]
        hostMemory := Memory.writeBytes s.hostMemory x.address data } ∧
      (∀ n : ResultRingId, cause.getLsbD n.val = (s.cause.getLsbD n.val || n == ring ||
        match s.resultRings[n] with
        | none => false
        | some y => decide (0 < y.unsignalled))) ∧
      cause.getLsbD 4 = s.cause.getLsbD 4 ∧
      cause.getLsbD 5 = (s.cause.getLsbD 5 || decide (s.controller = .quiescing)) ∧
      cause.getLsbD 6 = s.cause.getLsbD 6 ∧ cause.getLsbD 7 = s.cause.getLsbD 7

/-- R146, R155, R157, R158: a NOTICE write of an OPEN station ends done, no drain waiting: the produced index, its
write-back and the count as for any record (signalled at once with the task table empty), and the station's mark is
cleared unless another NOTICE of it is in flight. -/
def Obligations.NoticeWritten : Prop :=
  ∀ (s : State) (id : StationId) (c : Station) (ring : ResultRingId) (index : RingIndex) (q : ResultRing)
      (x : Transfer) (e : Nat) (data : List Byte), s.stations[id] = .opened c → s.resultRings[ring] = some q →
    oldestResult s ring index e = some x → x.kind = .notice id ring index →
    x.payload = .write data → x.failing = false → (∀ j : SlotId, ∀ u ∈ s.slots[j], u.draining = false) →
    let rest := without s x.kind e
    let produced := (rest.findSome? (Transfer.resultIndex ring)).getD q.placed
    let signals := decide (q.threshold ≤ q.unsignalled + 1) || decide (∀ k : SlotId, s.slots[k] = none)
    ∃ mark : Bool, (mark = true ↔ ∃ y ∈ rest, ∃ n i, y.kind = .notice id n i) ∧
      exec (.resultWriteDone ring index e) s = .next { s with
        stations := s.stations.set id (.opened { c with noticeInFlight := mark })
        resultRings := s.resultRings.set ring (some
          { q with produced := produced, unsignalled := if signals then 0 else q.unsignalled + 1 })
        cause := if signals then s.cause ||| resultBit ring else s.cause
        messages := if signals then messagesAfter s (s.cause ||| resultBit ring) s.mask else s.messages
        transfers := rest ++ [producedWriteBack s ring produced]
        hostMemory := Memory.writeBytes s.hostMemory x.address data }

/-- R9, R10, R22, R131, R133, R138, R155: a drain ends at the first event that satisfies it. After the end of a result
write no task is left in DRAIN_WAIT whose condition holds. At the end of a completion's write beside the one task in
DRAIN_WAIT, the slot leaves the table and a close's drain set: a close that this leaves with an empty set and no NOTICE
write in flight, or a deletion whose ring it leaves with nothing in flight, ends in that event, and otherwise waits on. At
the end of a NOTICE's write, of a CLOSING station too, the station's mark is cleared unless another of its notices is in
flight, and a drain that this satisfies ends in that event. -/
def Obligations.NoDueDrainIsLeft : Prop :=
  (∀ (s t : State) (ring : ResultRingId) (index : RingIndex) (x : Transfer) (e : Nat),
     oldestResult s ring index e = some x → x.failing = false →
     exec (.resultWriteDone ring index e) s = .next t → ∀ k, ¬DrainDue t k) ∧
  (∀ (s : State) (k j : SlotId) (t u : Task) (ring : ResultRingId) (index : RingIndex) (q : ResultRing) (w : WorkRing)
       (x : Transfer) (e : Nat) (data : List Byte) (r : Block64), s.slots[k] = some t → s.workRings[t.ring] = some w →
     s.resultRings[ring] = some q → oldestResult s ring index e = some x → x.kind = .completion k ring index →
     x.payload = .write data → x.failing = false → j ≠ k → s.slots[j] = some u →
     (∀ i : SlotId, i ≠ j → ∀ v ∈ s.slots[i], v.draining = false) →
     let written : State := { recordWritten s ring q x data with
       slots := s.slots.set k none
       workRings := s.workRings.set t.ring (some { w with inFlight := w.inFlight - 1 }) }
     (∀ (id : StationId) (c : Station) (recorded : List SlotId), u.phase = .drainWait r (.close id recorded) →
       s.stations[id] = .closing c →
       let left := recorded.filter fun i => i != k
       (left = [] → c.noticeInFlight = false →
         exec (.resultWriteDone ring index e) s = .next (closedAs written j u r id c)) ∧
       (left ≠ [] ∨ c.noticeInFlight = true → exec (.resultWriteDone ring index e) s = .next { written with
         slots := written.slots.set j (some { u with phase := .drainWait r (.close id left) }) })) ∧
     ∀ (n : WorkRingId) (v : WorkRing), u.phase = .drainWait r (.delete n) → written.workRings[n] = some v →
       (v.inFlight = 0 → exec (.resultWriteDone ring index e) s = .next (deletedAs written j u r n v)) ∧
       (v.inFlight ≠ 0 → exec (.resultWriteDone ring index e) s = .next written)) ∧
  ∀ (s : State) (j : SlotId) (u : Task) (id : StationId) (c : Station) (ring : ResultRingId) (index : RingIndex)
      (q : ResultRing) (x : Transfer) (e : Nat) (data : List Byte) (r : Block64), (s.stations[id]).station = some c →
    s.resultRings[ring] = some q → oldestResult s ring index e = some x → x.kind = .notice id ring index →
    x.payload = .write data → x.failing = false → s.slots[j] = some u →
    (∀ i : SlotId, i ≠ j → ∀ v ∈ s.slots[i], v.draining = false) →
    ∃ mark : Bool, (mark = true ↔ ∃ y ∈ without s x.kind e, ∃ n i, y.kind = .notice id n i) ∧
      let written : State := { recordWritten s ring q x data with
        stations := s.stations.set id ((s.stations[id]).update fun c => { c with noticeInFlight := mark }) }
      (∀ (m : StationId) (d : Station) (recorded : List SlotId), u.phase = .drainWait r (.close m recorded) →
        written.stations[m] = .closing d →
        (recorded = [] → d.noticeInFlight = false →
          exec (.resultWriteDone ring index e) s = .next (closedAs written j u r m d)) ∧
        (recorded ≠ [] ∨ d.noticeInFlight = true → exec (.resultWriteDone ring index e) s = .next written)) ∧
      ∀ (n : WorkRingId) (v : WorkRing), u.phase = .drainWait r (.delete n) → s.workRings[n] = some v →
        (v.inFlight = 0 → exec (.resultWriteDone ring index e) s = .next (deletedAs written j u r n v)) ∧
        (v.inFlight ≠ 0 → exec (.resultWriteDone ring index e) s = .next written)

/-- R10, R114, R115, R138: a drain ends. A close frees its armed sets and its context and reports the counters and the sets
freed; a deletion frees the ring's OPEN sets, makes the ring ABSENT and reports the abandoned records and the sets freed.
While a recorded task, a NOTICE write or a task of the ring is outstanding, the task waits. -/
def Obligations.DrainsEnd : Prop :=
  (∀ (s : State) (k : SlotId) (t : Task) (r : Block64) (id : StationId) (c : Station) (recorded : List SlotId),
     s.slots[k] = some t → t.phase = .drainWait r (.close id recorded) → s.stations[id] = .closing c →
     (recorded = [] → c.noticeInFlight = false → exec (.closeDrainEnd k) s = .next { s with
       sets := Vector.ofFn fun i => if i ∈ c.armed then .free else s.sets[i]
       stations := s.stations.set id .free
       slots := s.slots.set k (some (answered t r .ok
         (.closeStation c.armed.length c.measures c.decisions c.skipped))) }) ∧
     (recorded ≠ [] ∨ c.noticeInFlight = true → exec (.closeDrainEnd k) s = .next s)) ∧
  ∀ (s : State) (k : SlotId) (t : Task) (r : Block64) (n : WorkRingId) (w : WorkRing), s.slots[k] = some t →
    t.phase = .drainWait r (.delete n) → s.workRings[n] = some w →
    (w.inFlight = 0 → ∃ freed : Nat, freed = ((List.finRange 8).filter fun i =>
        (s.sets[i]).owner == some n && (s.sets[i]).state == .opened).length ∧
      exec (.deleteDrainEnd k) s = .next { s with
        sets := Vector.ofFn fun i =>
          if (s.sets[i]).owner = some n ∧ (s.sets[i]).state = .opened then .free else s.sets[i]
        workRings := s.workRings.set n none
        slots := s.slots.set k (some (answered t r .ok
          (.deleteWorkRing n.val freed (w.posted - w.taken).toNat))) }) ∧
    (w.inFlight ≠ 0 → exec (.deleteDrainEnd k) s = .next s)

/-- R167, R168, R181, R182: a failed result write or write-back halts the controller with its cause; in HALTED a failed
write-back changes nothing but what reached memory, and one that ends done, in any state, leaves its value in its place. -/
def Obligations.ResultAndWriteBackEnds : Prop :=
  (∀ (s : State) (ring : ResultRingId) (index : RingIndex) (x : Transfer) (e : Nat), Halts s →
    oldestResult s ring index e = some x →
    ∃ m d, exec (.resultWriteFault ring index e) s =
        .next (haltedAs { s with transfers := without s x.kind e } .resultWriteFault m d) ∧
      Torn (x :: abandonedByHalt s) s.hostMemory m) ∧
  ∀ (s : State) (place : Place) (x : Transfer) (e : Nat) (data : List Byte),
    oldest s (.writeBack place) e = some x → x.payload = .write data →
    (Halts s → ∃ m d, exec (.writebackFault place e) s =
        .next (haltedAs { s with transfers := without s (.writeBack place) e } .writebackFault m d) ∧
      Torn (x :: abandonedByHalt s) s.hostMemory m) ∧
    (s.controller = .halted → ∃ m d, exec (.writebackFault place e) s = .next
        { s with transfers := without s (.writeBack place) e, hostMemory := m, draws := d } ∧ Torn [x] s.hostMemory m) ∧
    (x.failing = false → exec (.writebackDone place e) s = .next
      { s with transfers := without s (.writeBack place) e, hostMemory := Memory.writeBytes s.hostMemory x.address data })

/-- A write of consecutive bytes puts each byte at its address and leaves every other address as it was (addresses wrap
at 2^64: log entry 8). -/
def Obligations.WriteBytesPlacesThem : Prop :=
  ∀ (m : Memory) (a : Address) (data : List Byte), data.length ≤ 2 ^ 64 →
    (∀ i, i < data.length → (Memory.writeBytes m a data).read (a + BitVec.ofNat 64 i).toNat = data[i]?) ∧
    ∀ b : Nat, (∀ i, i < data.length → b ≠ (a + BitVec.ofNat 64 i).toNat) →
      (Memory.writeBytes m a data).read b = m.read b

/-! ## Execution of tasks: rings and the scheduler -/

/-- R130, R151, R152, R153, R190: QUERY_DEVICE reports the free counts, from ring 0 only; a record of no known kind
completes with BAD_KIND; a task with the unreadable mark with RECORD_UNREADABLE. Each changes its own slot alone.
That the body of BAD_KIND is 0 throughout is the model's deduction (log entry 25). -/
def Obligations.SchedulerAnswers : Prop :=
  (∀ (s : State) (k : SlotId) (t : Task) (r : Block64), Runs s k t r 0x01 →
    (t.ring ≠ 0 → exec (.queryDevice k) s = .next
      { s with slots := s.slots.set k (some (answered t r .wrongRing .blank)) }) ∧
    (t.ring = 0 → exec (.queryDevice k) s = .next { s with slots := s.slots.set k (some (answered t r .ok
      (.queryDevice (24 - (s.sets.toList.map fun x => (x.items.length + 7) / 8).sum)
        ((List.finRange 8).countP fun i => (s.sets[i]).state == .free)
        ((List.finRange 8).countP fun j => (s.slots[j]).isNone)))) })) ∧
  (∀ (s : State) (k : SlotId) (t : Task) (r : Block64), Runs s k t r (recordKind r) →
    recordKind r ∉ [0x01, 0x02, 0x03, 0x04, 0x05, 0x08, 0x09, 0x0A, 0x10, 0x11, 0x12, 0x13, 0x14, 0x15, 0x18, 0x19, 0x1A,
      0x1B] →
    exec (.badKind k) s = .next { s with slots := s.slots.set k (some (answered t r .badKind .blank)) }) ∧
  ∀ (s : State) (k : SlotId) (t : Task), s.slots[k] = some t → t.phase = .queued none →
    (∀ j : SlotId, ∀ u ∈ s.slots[j], u.before t → u.executed) →
    let done : Completion :=
      { status := .recordUnreadable, tag := 0xFFFF#16, ring := t.ring, station := 0xFF#8, body := .unreadable t.index }
    exec (.recordUnreadable k) s = .next
      { s with slots := s.slots.set k (some { t with phase := .writing none done none }) }

/-- R134, R135, R151: CREATE_WORK_RING's checks in their order, and the ring it makes, with its write-back of 0. -/
def Obligations.CreateWorkRing : Prop :=
  ∀ (s : State) (k : SlotId) (t : Task) (r : Block64), Runs s k t r 0x02 →
    let fields := (1 ≤ recordByte8 r ∧ recordByte8 r ≤ 7) ∧ (recordAddress r).toNat % 64 = 0 ∧ RingSize (recordSize r) ∧
      recordByte9 r ≤ 3 ∧ 1 ≤ recordByteA r ∧ recordByteA r ≤ 8
    let fails := fun status => exec (.createWorkRing k) s = .next
      { s with slots := s.slots.set k (some (answered t r status .blank)) }
    (t.ring ≠ 0 → fails .wrongRing) ∧
    (t.ring = 0 → ¬fields → fails .badField) ∧
    ∀ (n : WorkRingId) (m : ResultRingId), t.ring = 0 → fields → recordByte8 r = n.val → recordByte9 r = m.val →
      (s.resultRings[m] = none → fails .noRing) ∧
      (s.resultRings[m] ≠ none → s.workRings[n] ≠ none → fails .ringExists) ∧
      (s.resultRings[m] ≠ none → s.workRings[n] = none → exec (.createWorkRing k) s = .next { s with
        workRings := s.workRings.set n (some
          { state := .active, base := recordAddress r, size := recordSize r, resultRing := m,
            weight := some (recordByteA r), posted := 0, taken := 0, written := 0, inFlight := 0 })
        transfers := s.transfers ++ [takenWriteBack s n 0]
        slots := s.slots.set k (some (answered t r .ok (.createWorkRing n.val m.val (recordSize r)))) })

/-- R133, R136, R137, R138: DELETE_WORK_RING's checks in their order; the ring turns DRAINING and the task enters
DRAIN_WAIT, or, with nothing of the ring in flight, the deletion is finished in the same event. -/
def Obligations.DeleteWorkRing : Prop :=
  ∀ (s : State) (k : SlotId) (t : Task) (r : Block64), Runs s k t r 0x03 →
    let fails := fun status => exec (.deleteWorkRing k) s = .next
      { s with slots := s.slots.set k (some (answered t r status .blank)) }
    (t.ring ≠ 0 → fails .wrongRing) ∧
    (t.ring = 0 → recordByte8 r = 0 ∨ 8 ≤ recordByte8 r → fails .badField) ∧
    ∀ n : WorkRingId, t.ring = 0 → n ≠ 0 → recordByte8 r = n.val →
      (s.workRings[n] = none → fails .noRing) ∧
      ∀ w, s.workRings[n] = some w →
        ((∃ id : StationId, ∃ c, (s.stations[id]).station = some c ∧ c.homeRing = n) → fails .ringInUse) ∧
        ((∀ (id : StationId) (c : Station), (s.stations[id]).station = some c → c.homeRing ≠ n) →
          (w.inFlight ≠ 0 → exec (.deleteWorkRing k) s = .next { s with
            workRings := s.workRings.set n (some { w with state := .draining })
            slots := s.slots.set k (some { t with phase := .drainWait r (.delete n) }) }) ∧
          (w.inFlight = 0 → ∃ freed : Nat, freed = ((List.finRange 8).filter fun i =>
              (s.sets[i]).owner == some n && (s.sets[i]).state == .opened).length ∧
            exec (.deleteWorkRing k) s = .next { s with
              workRings := s.workRings.set n none
              sets := Vector.ofFn fun i =>
                if (s.sets[i]).owner = some n ∧ (s.sets[i]).state = .opened then .free else s.sets[i]
              slots := s.slots.set k (some (answered t r .ok
                (.deleteWorkRing n.val freed (w.posted - w.taken).toNat))) }))

/-- R149, R150, R151: the checks of CREATE_RESULT_RING and DELETE_RESULT_RING in their order; the ring one makes, with its
write-back of 0; and the ring not in use that the other makes ABSENT at once, reporting the records lost. -/
def Obligations.ResultRingCommands : Prop :=
  (∀ (s : State) (k : SlotId) (t : Task) (r : Block64), Runs s k t r 0x04 →
     let fields := (1 ≤ recordByte8 r ∧ recordByte8 r ≤ 3) ∧ (recordAddress r).toNat % 32 = 0 ∧ RingSize (recordSize r) ∧
       1 ≤ recordThreshold r ∧ recordThreshold r ≤ recordSize r
     let fails := fun status => exec (.createResultRing k) s = .next
       { s with slots := s.slots.set k (some (answered t r status .blank)) }
     (t.ring ≠ 0 → fails .wrongRing) ∧
     (t.ring = 0 → ¬fields → fails .badField) ∧
     ∀ n : ResultRingId, t.ring = 0 → fields → recordByte8 r = n.val →
       (s.resultRings[n] ≠ none → fails .ringExists) ∧
       (s.resultRings[n] = none → exec (.createResultRing k) s = .next { s with
         resultRings := s.resultRings.set n (some
           { base := recordAddress r, size := recordSize r, threshold := recordThreshold r, placed := 0, produced := 0,
             released := 0, reserved := 0, unsignalled := 0 })
         transfers := s.transfers ++ [producedWriteBack s n 0]
         slots := s.slots.set k (some (answered t r .ok
           (.createResultRing n.val (recordSize r) (recordThreshold r)))) })) ∧
  ∀ (s : State) (k : SlotId) (t : Task) (r : Block64), Runs s k t r 0x05 →
    let fails := fun status => exec (.deleteResultRing k) s = .next
      { s with slots := s.slots.set k (some (answered t r status .blank)) }
    (t.ring ≠ 0 → fails .wrongRing) ∧
    (t.ring = 0 → recordByte8 r = 0 ∨ 4 ≤ recordByte8 r → fails .badField) ∧
    ∀ n : ResultRingId, t.ring = 0 → n ≠ 0 → recordByte8 r = n.val →
      let bound := ∃ m : WorkRingId, ∃ w, s.workRings[m] = some w ∧ w.resultRing = n
      let named := ∃ id : StationId, ∃ c, (s.stations[id]).station = some c ∧ c.noticeRing = n
      (s.resultRings[n] = none → fails .noRing) ∧
      ∀ q, s.resultRings[n] = some q →
        (bound ∨ named → fails .ringInUse) ∧
        (¬bound → ¬named → exec (.deleteResultRing k) s = .next { s with
          resultRings := s.resultRings.set n none
          slots := s.slots.set k (some (answered t r .ok
            (.deleteResultRing n.val (q.produced - q.released).toNat))) })

/-! ## Execution of tasks: stations -/

/-- R4 to R7, R73, R116: OPEN_STATION's checks in their order; one that passes forms the first profile over the defaults. A
consistent one opens the station with one treated base entry and frees the named set; another completes with
PROFILE_INVALID and the failing relation. A failing command changes its own slot alone. -/
def Obligations.OpenStation : Prop :=
  (∀ (s : State) (k : SlotId) (t : Task) (r : Block64), Runs s k t r 0x08 →
     let fields := recordByte8 r < 32 ∧ (1 ≤ recordByte9 r ∧ recordByte9 r ≤ 7) ∧ recordByteA r < 4 ∧ 16 ≤ recordSize r ∧
       (1 ≤ recordDelay r ∧ recordDelay r ≤ 4) ∧ ActuatorsInRange r ∧ (recordByteB r < 8 ∨ recordByteB r = 0xFF)
     let fails := fun status => exec (.openStation k) s = .next { s with
       slots := s.slots.set k (some (answered t r status (.openStation 0 .idle 0 (recordByte8 r) 0 0 0))) }
     (t.ring ≠ 0 → fails .wrongRing) ∧
     (t.ring = 0 → ¬fields → fails .badField) ∧
     ∀ (id : StationId) (home : WorkRingId) (notice : ResultRingId), t.ring = 0 → fields → recordByte8 r = id.val →
       recordByte9 r = home.val → recordByteA r = notice.val →
       let active := ∃ w, s.workRings[home] = some w ∧ w.state = .active
       (¬active ∨ s.resultRings[notice] = none → fails .noRing) ∧
       (active → s.resultRings[notice] ≠ none →
         (∀ i : SetId, recordByteB r = i.val →
           ((s.sets[i]).state ≠ .opened → fails .noSet) ∧
           ((s.sets[i]).state = .opened → (s.sets[i]).owner ≠ some 0 → fails .notOwner)) ∧
         ((recordByteB r = 0xFF ∨ ∃ i : SetId, recordByteB r = i.val ∧ (s.sets[i]).state = .opened ∧
             (s.sets[i]).owner = some 0) → s.stations[id] ≠ .free → fails .stationInUse))) ∧
  ∀ (s : State) (k : SlotId) (t : Task) (r : Block64) (id : StationId) (home : WorkRingId) (notice : ResultRingId)
      (w : WorkRing) (set : Option SetId) (items : List Item),
    Runs s k t r 0x08 → t.ring = 0 → recordByte8 r = id.val → recordByte9 r = home.val → home ≠ 0 →
    recordByteA r = notice.val → 16 ≤ recordSize r → (1 ≤ recordDelay r ∧ recordDelay r ≤ 4) → ActuatorsInRange r →
    s.workRings[home] = some w → w.state = .active → s.resultRings[notice] ≠ none → s.stations[id] = .free →
    (match set with
      | none => recordByteB r = 0xFF ∧ items = []
      | some i => recordByteB r = i.val ∧ s.sets[i] = .opened 0 items) →
    let p := Profile.defaults.merge items
    let v := treat p (recordSize r) (recordI r) (recordG r) (recordL r)
    (ConsistentProfile p → exec (.openStation k) s = .next { s with
      sets := match set with
        | none => s.sets
        | some i => s.sets.set i .free
      stations := s.stations.set id (.opened
        { homeRing := home, noticeRing := notice, frameLines := recordSize r, applyDelay := recordDelay r, profile := p,
          loop := .idle, lastFrame := none, lastMean := none, lastCompensated := none, lastClip := none, older := [],
          newest :=
            { effective := none, i := v.i, g := v.g, l := v.l, product := v.i * v.g * v.l,
              span := (v.i + recordSize r - 1) / recordSize r },
          armed := [], pendingSet := 0, noticeArmed := true, noticeInFlight := false, measures := 0, decisions := 0,
          skipped := 0 })
      slots := s.slots.set k (some (answered t r .ok
        (.openStation (recordByteB r) .idle 0 (recordByte8 r) v.i v.g v.l))) }) ∧
    (¬ConsistentProfile p → exec (.openStation k) s = .next { s with
      slots := s.slots.set k (some (answered t r .profileInvalid
        (.openStation 0 .idle p.failingRelation (recordByte8 r) 0 0 0))) })

/-- R8, R9, R10: CLOSE_STATION's checks in their order; the station turns CLOSING and the task enters DRAIN_WAIT with its
drain set, the home-ring slots that hold a record naming the station or one still being read; with an empty drain set and
no NOTICE write in flight the close is finished in the same event. -/
def Obligations.CloseStation : Prop :=
  ∀ (s : State) (k : SlotId) (t : Task) (r : Block64), Runs s k t r 0x09 →
    let fails := fun status => exec (.closeStation k) s = .next
      { s with slots := s.slots.set k (some (answered t r status .blank)) }
    (t.ring ≠ 0 → fails .wrongRing) ∧
    (t.ring = 0 → 32 ≤ recordByte8 r → fails .badField) ∧
    ∀ id : StationId, t.ring = 0 → recordByte8 r = id.val →
      (s.stations[id] = .free → fails .noStation) ∧
      (∀ c, s.stations[id] = .closing c → fails .stationClosing) ∧
      ∀ c, s.stations[id] = .opened c → ∃ drain : List SlotId,
        drain.Pairwise (· < ·) ∧
        (∀ j : SlotId, j ∈ drain ↔ ∃ u, s.slots[j] = some u ∧ u.ring = c.homeRing ∧
          (u.phase = .reading ∨ ∃ a, namesStation a id = true ∧
            (u.phase = .fetching a ∨ u.phase = .queued (some a) ∨ (∃ d, u.phase = .drainWait a d) ∨
              ∃ done image, u.phase = .writing (some a) done image))) ∧
        (drain ≠ [] ∨ c.noticeInFlight = true → exec (.closeStation k) s = .next { s with
          stations := s.stations.set id (.closing c)
          slots := s.slots.set k (some { t with phase := .drainWait r (.close id drain) }) }) ∧
        (drain = [] → c.noticeInFlight = false → exec (.closeStation k) s = .next { s with
          stations := s.stations.set id .free
          sets := Vector.ofFn fun i => if i ∈ c.armed then .free else s.sets[i]
          slots := s.slots.set k (some (answered t r .ok
            (.closeStation c.armed.length c.measures c.decisions c.skipped))) })

/-- R13, R14, R194: READ_STATION's checks in their order; an OPEN or CLOSING context is captured into a 256-byte image whose
write to the buffer is requested, and no context changes. The image stands as the snapshot's tables lay it out, with the
codes of R66 and R191, for a history of at most 5 entries and at most 2 armed sets; every byte no table names is 0. -/
def Obligations.ReadStation : Prop :=
  (∀ (id : StationId) (state : StationState) (c : Station) (sets : Vector StagingSet 8), c.older.length ≤ 4 →
     c.armed.length ≤ 2 → Laid 256 (snapshotContents id state c sets) (snapshotBytes id state c sets)) ∧
  [Pace.fine, .coarse, .proportional].map Pace.code = List.range 3 ∧
  [Order.igl, .ilg, .lig, .lgi, .gil, .gli].map Order.code = List.range 6 ∧
  [GapPolicy.reseek, .report].map GapPolicy.code = List.range 2 ∧
  [Inflight.wait, .compensate].map Inflight.code = List.range 2 ∧
  ∀ (s : State) (k : SlotId) (t : Task) (r : Block64), Runs s k t r 0x0A →
    let fails := fun status => exec (.readStation k) s = .next
      { s with slots := s.slots.set k (some (answered t r status .blank)) }
    (t.ring ≠ 0 → fails .wrongRing) ∧
    (t.ring = 0 → 32 ≤ recordByte8 r ∨ (recordAddress r).toNat % 64 ≠ 0 → fails .badField) ∧
    ∀ id : StationId, t.ring = 0 → recordByte8 r = id.val → (recordAddress r).toNat % 64 = 0 →
      (s.stations[id] = .free → fails .noStation) ∧
      ∀ c, (s.stations[id]).station = some c →
        let image := snapshotBytes id (s.stations[id]).state c s.sets
        let done : Completion :=
          { status := .ok, tag := recordTag r, ring := t.ring, station := BitVec.ofNat 8 id.val,
            body := .readStation (s.stations[id]).state c.loop }
        image.length = 256 ∧
        exec (.readStation k) s = .next { s with
          slots := s.slots.set k (some { t with phase := .writing (some r) done (some image) })
          transfers := s.transfers ++ [requested s (.snapshot k) (recordAddress r) (.write image)] }

/-- R3, R58, R192: the checks of MEASURE, FREEZE, THAW, RESEEK, SET_ACTUATORS and ACK_NOTICE, in their order, and the
completion of the first that fails; a failing command changes its own slot alone. -/
def Obligations.HomeCommandChecks : Prop :=
  ∀ (s : State) (i : Instr) (k : SlotId) (kind : Nat) (t : Task) (r : Block64), homeKindOf i = some (k, kind) →
    Runs s k t r kind →
    let fails := fun status => exec i s = .next
      { s with slots := s.slots.set k (some (answered t r status (.home .none false none none none none))) }
    (t.ring = 0 → fails .wrongRing) ∧
    (t.ring ≠ 0 → 32 ≤ recordByte8 r ∨ ¬FieldsInRange kind r → fails .badField) ∧
    ∀ id : StationId, t.ring ≠ 0 → recordByte8 r = id.val → FieldsInRange kind r →
      (s.stations[id] = .free → fails .noStation) ∧
      ∀ c, (s.stations[id]).station = some c →
        (c.homeRing ≠ t.ring → fails .wrongRing) ∧
        (c.homeRing = t.ring → (s.stations[id]).state = .closing → fails .stationClosing)

/-- R15, R17, R19, R84: FREEZE makes the loop state FROZEN from any loop state; RESEEK makes it IDLE and the last frame absent
and cuts the history to its newest entry; ACK_NOTICE sets the notice armed flag. None changes anything else. -/
def Obligations.FreezeReseekAckNotice : Prop :=
  (∀ (s : State) (k : SlotId) (t : Task) (r : Block64) (id : StationId) (c : Station), Runs s k t r 0x11 →
     Obeys s t r id c → exec (.freeze k) s = .next { s with
       stations := s.stations.set id (.opened { c with loop := .frozen })
       slots := s.slots.set k (some (answered t r .ok (reportBody .frozen c.newest))) }) ∧
  ∀ (s : State) (k : SlotId) (t : Task) (r : Block64) (id : StationId) (c : Station), Obeys s t r id c →
    (Runs s k t r 0x13 → exec (.reseek k) s = .next { s with
      stations := s.stations.set id (.opened { c with loop := .idle, lastFrame := none, older := [] })
      slots := s.slots.set k (some (answered t r .ok (reportBody .idle c.newest))) }) ∧
    (Runs s k t r 0x15 → exec (.ackNotice k) s = .next { s with
      stations := s.stations.set id (.opened { c with noticeArmed := true })
      slots := s.slots.set k (some (answered t r .ok (reportBody c.loop c.newest))) })

/-- R16: THAW takes a FROZEN station to SEEKING and raises SEEK; from any other loop state it changes nothing. -/
def Obligations.Thaw : Prop :=
  ∀ (s : State) (k : SlotId) (t : Task) (r : Block64) (id : StationId) (c : Station), Runs s k t r 0x12 →
    Obeys s t r id c →
    (c.loop = .frozen → exec (.thaw k) s = .next { s with
      stations := s.stations.set id (.opened { c with loop := .seeking, pendingSet := joined c 0x002#9 })
      slots := s.slots.set k (some (answered t r .ok (reportBody .seeking c.newest))) }) ∧
    (c.loop ≠ .frozen → exec (.thaw k) s = .next
      { s with slots := s.slots.set k (some (answered t r .ok (reportBody c.loop c.newest))) })

/-- R18, R74: SET_ACTUATORS replaces the history with one treated entry at the named frame; the loop state becomes SEEKING,
raising SEEK when it was another, unless it is FROZEN; the completion carries the treated entry. -/
def Obligations.SetActuators : Prop :=
  ∀ (s : State) (k : SlotId) (t : Task) (r : Block64) (id : StationId) (c : Station), Runs s k t r 0x14 →
    Obeys s t r id c → ActuatorsInRange r →
    let v := treat c.profile c.frameLines (recordI r) (recordG r) (recordL r)
    let entry : Entry :=
      { effective := some (recordFrame r), i := v.i, g := v.g, l := v.l, product := v.i * v.g * v.l,
        span := (v.i + c.frameLines - 1) / c.frameLines }
    let loop : LoopState := if c.loop = .frozen then .frozen else .seeking
    exec (.setActuators k) s = .next { s with
      stations := s.stations.set id (.opened { c with
        older := [], newest := entry, loop := loop
        pendingSet := if c.loop = .frozen ∨ c.loop = .seeking then c.pendingSet else joined c 0x002#9 })
      slots := s.slots.set k (some (answered t r .ok (reportBody loop entry))) }

/-! ## Execution of tasks: MEASURE -/

/-- R29, R36, R40, R41, R42, R86, R90 to R93: the five ends of a MEASURE before the loop: SKIPPED_STALE; GRID_FAULT; EMPTY
without a mean; SKIPPED_PENDING when late under WAIT; HELD when the station is FROZEN. The last values, the counters, the
trim and the conditions are as each rule gives, and from EMPTY on the actions of stages 4 and 5 stand. -/
def Obligations.MeasureEndsEarly : Prop :=
  (∀ (s : State) (k : SlotId) (t : Task) (r : Block64) (id : StationId) (c : Station), Measures s k t r id c →
     let stale := ∃ last, c.lastFrame = some last ∧ frameAfter (recordFrame r) last = false
     (stale → exec (.measure k) s = .next { s with
       stations := s.stations.set id (.opened { c with measures := c.measures + 1, skipped := c.skipped + 1 })
       slots := s.slots.set k (some (answered t r .ok
         (.home .skippedStale false none none none (some ⟨c.loop, c.newest⟩)))) }) ∧
     (¬stale → recordSynth r = false → t.grid = .failed → exec (.measure k) s = .next { s with
       stations := s.stations.set id (.opened { c with pendingSet := joined c 0x100#9 })
       slots := s.slots.set k (some (answered t r .gridFault
         (.home .none false none none none (some ⟨c.loop, c.newest⟩)))) })) ∧
  ∀ (s : State) (k : SlotId) (t : Task) (r : Block64) (id : StationId) (c : Station), Measures s k t r id c →
    (∀ last, c.lastFrame = some last → frameAfter (recordFrame r) last = true) →
    (recordSynth r = false → t.grid ≠ .failed) →
    let f := recordFrame r
    let gap := gapStage f c
    let landed := armedStage f gap.station s.sets
    let e := landed.1.raiseAll gap.raises
    let cells := if recordSynth r then
        synthesize (recordByteB r == 1) (recordBase r) (recordSlope r) (recordByte9 r) (recordByteA r)
      else match t.grid with
        | .held cells => cells
        | _ => []
    let m := meter e.profile (recordByte9 r) cells
    let older := trimOlder f e.older e.newest
    (m.mean = none → exec (.measure k) s = .next { s with
      sets := landed.2
      stations := s.stations.set id (.opened { e with
        lastFrame := some f, lastMean := none, lastCompensated := none, lastClip := some 0, measures := e.measures + 1 })
      slots := s.slots.set k (some (answered t r .ok
        (.home .empty false none none (some 0) (some ⟨e.loop, e.newest⟩)))) }) ∧
    (∀ mean, m.mean = some mean → older ≠ [] → e.profile.inflight = .wait → exec (.measure k) s = .next { s with
      sets := landed.2
      stations := s.stations.set id (.opened { e with
        older := older, lastFrame := some f, lastMean := some mean, lastCompensated := none, lastClip := some m.clip,
        measures := e.measures + 1, skipped := e.skipped + 1 })
      slots := s.slots.set k (some (answered t r .ok
        (.home .skippedPending m.veto (some mean) none (some m.clip) (some ⟨e.loop, e.newest⟩)))) }) ∧
    ∀ mean mc, m.mean = some mean →
      (older = [] ∧ mc = mean ∨ ∃ first rest, older = first :: rest ∧ e.profile.inflight = .compensate ∧
        mc = min 4095 (mean * e.newest.product / first.product)) →
      e.loop = .frozen → exec (.measure k) s = .next { s with
        sets := landed.2
        stations := s.stations.set id (.opened { e with
          older := older, lastFrame := some f, lastMean := some mean, lastCompensated := some mc, lastClip := some m.clip,
          measures := e.measures + 1 })
        slots := s.slots.set k (some (answered t r .ok
          (.home .held m.veto (some mean) (some mc) (some m.clip) (some ⟨e.loop, e.newest⟩)))) }

/-- R45 to R49, R56, R57: a MEASURE that reaches the loop, by its trimmed history, compensated mean and veto. In the band
of its entry state the station settles; a step up or down, or the veto response, allocates a new product, and is pushed
when a value differs from the newest entry's, or is held; exit state, conditions, outcome and counters follow. -/
def Obligations.MeasureMovesTheLoop : Prop :=
  ∀ (s : State) (k : SlotId) (t : Task) (r : Block64) (id : StationId) (c : Station) (mean mc : Nat),
    Measures s k t r id c →
    (∀ last, c.lastFrame = some last → frameAfter (recordFrame r) last = true) →
    (recordSynth r = false → t.grid ≠ .failed) →
    let f := recordFrame r
    let gap := gapStage f c
    let landed := armedStage f gap.station s.sets
    let e := landed.1.raiseAll gap.raises
    let p := e.profile
    let cells := if recordSynth r then
        synthesize (recordByteB r == 1) (recordBase r) (recordSlope r) (recordByte9 r) (recordByteA r)
      else match t.grid with
        | .held cells => cells
        | _ => []
    let m := meter p (recordByte9 r) cells
    let older := trimOlder f e.older e.newest
    m.mean = some mean →
    (older = [] ∧ mc = mean ∨ ∃ first rest, older = first :: rest ∧ p.inflight = .compensate ∧
      mc = min 4095 (mean * e.newest.product / first.product)) →
    e.loop ≠ .frozen →
    let lo := if e.loop = .settled then p.outerLo else p.innerLo
    let hi := if e.loop = .settled then p.outerHi else p.innerHi
    let recorded : Station := { e with
      older := older, lastFrame := some f, lastMean := some mean, lastCompensated := some mc, lastClip := some m.clip,
      measures := e.measures + 1 }
    let leaves := fun (outcome : MeasureOutcome) (u : Station) => exec (.measure k) s = .next { s with
      sets := landed.2
      stations := s.stations.set id (.opened u)
      slots := s.slots.set k (some (answered t r .ok
        (.home outcome m.veto (some mean) (some mc) (some m.clip) (some ⟨u.loop, u.newest⟩)))) }
    let raising := fun (exit : LoopState) (bits : Conditions) => if e.loop = exit then e.pendingSet else joined e bits
    (m.veto = false → lo ≤ mc → mc ≤ hi →
      leaves .unchanged { recorded with loop := .settled, pendingSet := raising .settled 0x001#9 }) ∧
    ∀ product : Nat, (m.veto = true ∧ product = e.newest.product * 3 / 4 ∨
        m.veto = false ∧ mc < lo ∧ product = stepProduct p e.newest.product mc true ∨
        m.veto = false ∧ hi < mc ∧ lo ≤ mc ∧ product = stepProduct p e.newest.product mc false) →
      let v := decompose p e.frameLines product
      let moved := v.i ≠ e.newest.i ∨ v.g ≠ e.newest.g ∨ v.l ≠ e.newest.l
      let entry : Entry :=
        { effective := some (f + BitVec.ofNat 32 e.applyDelay), i := v.i, g := v.g, l := v.l, product := v.i * v.g * v.l,
          span := (v.i + e.frameLines - 1) / e.frameLines }
      let pushed := recorded.push (f + BitVec.ofNat 32 e.applyDelay) entry
      let highlight := if m.veto then 0x010#9 &&& p.noticeMask else 0#9
      (moved → leaves .decided { pushed with
        loop := .seeking, pendingSet := raising .seeking 0x002#9 ||| highlight, decisions := e.decisions + 1 }) ∧
      (¬moved → m.veto = true → leaves .unchanged
        { recorded with loop := .seeking, pendingSet := raising .seeking 0x002#9 ||| highlight }) ∧
      (¬moved → m.veto = false → mc < lo → leaves .unchanged
        { recorded with loop := .pinnedDark, pendingSet := raising .pinnedDark 0x004#9 }) ∧
      (¬moved → m.veto = false → lo ≤ mc → leaves .unchanged
        { recorded with loop := .pinnedBright, pendingSet := raising .pinnedBright 0x008#9 })

/-! ## Execution of tasks: staging -/

/-- R102, R109, R117: STAGE_OPEN opens the lowest FREE set id for the task's ring, or completes with SET_LIMIT; STAGE_DISCARD,
after its checks in their order, frees an OPEN set, withdraws and frees an ARMED set of an OPEN station, and leaves an
ARMED set of a CLOSING station. -/
def Obligations.StageOpenAndDiscard : Prop :=
  (∀ (s : State) (k : SlotId) (t : Task) (r : Block64), Runs s k t r 0x18 →
     (∀ i : SetId, s.sets[i] = .free → (∀ j < i, s.sets[j] ≠ .free) →
       let after := s.sets.set i (.opened t.ring [])
       exec (.stageOpen k) s = .next { s with
         sets := after
         slots := s.slots.set k (some (answered t r .ok
           (.stage i.val (freeBlocks after) (freeSetIds after) 0 0 0 .free 0 0))) }) ∧
     ((∀ i : SetId, s.sets[i] ≠ .free) → exec (.stageOpen k) s = .next { s with
       slots := s.slots.set k (some (answered t r .setLimit
         (.stage 0xFF (freeBlocks s.sets) (freeSetIds s.sets) 0 0 0 .free 0 0))) })) ∧
  ∀ (s : State) (k : SlotId) (t : Task) (r : Block64), Runs s k t r 0x1B →
    let fails := fun status => exec (.stageDiscard k) s = .next { s with slots := s.slots.set k (some (answered t r status
      (.stage (recordByte8 r) (freeBlocks s.sets) (freeSetIds s.sets) 0 0 0 .free 0 0))) }
    (8 ≤ recordByte8 r → fails .badField) ∧
    ∀ i : SetId, recordByte8 r = i.val →
      let freed := s.sets.set i .free
      let reply := fun prior => answered t r .ok (.stage i.val (freeBlocks freed) (freeSetIds freed) 0 0 0 prior 0 0)
      (s.sets[i] = .free → fails .noSet) ∧
      (s.sets[i] ≠ .free → (s.sets[i]).owner ≠ some t.ring → fails .notOwner) ∧
      (∀ items, s.sets[i] = .opened t.ring items → exec (.stageDiscard k) s = .next
        { s with sets := freed, slots := s.slots.set k (some (reply .opened)) }) ∧
      ∀ items id frame, s.sets[i] = .armed t.ring items id frame →
        (∀ c, s.stations[id] = .closing c → fails .stationClosing) ∧
        ∀ c, s.stations[id] = .opened c → exec (.stageDiscard k) s = .next { s with
          sets := freed
          stations := s.stations.set id (.opened { c with armed := c.armed.erase i })
          slots := s.slots.set k (some (reply .armed)) }

/-- R103, R104, R117, R190: STAGE_PUT's checks in their order; a record that passes is put whole, replacing the values of
fields held and appending the others, and a failing one leaves the set and the free blocks as they stood. -/
def Obligations.StagePut : Prop :=
  ∀ (s : State) (k : SlotId) (t : Task) (r : Block64), Runs s k t r 0x19 →
    let fails := fun status => exec (.stagePut k) s = .next { s with slots := s.slots.set k (some (answered t r status
      (.stage (recordByte8 r) (freeBlocks s.sets) (freeSetIds s.sets) 0 0 0 .free 0 0))) }
    (8 ≤ recordByte8 r ∨ recordByte9 r = 0 ∨ 7 ≤ recordByte9 r ∨ (∃ j < recordByte9 r, recordItem r j = none) →
      fails .badField) ∧
    ∀ (i : SetId) (items : List Item), recordByte8 r = i.val → 1 ≤ recordByte9 r → recordByte9 r ≤ 6 →
      items.length = recordByte9 r → (∀ j < recordByte9 r, recordItem r j = items[j]?) →
      ((s.sets[i]).state ≠ .opened → fails .noSet) ∧
      ((s.sets[i]).state = .opened → (s.sets[i]).owner ≠ some t.ring → fails .notOwner) ∧
      ∀ held, s.sets[i] = .opened t.ring held →
        let new := putItems items held
        let needed := (new.length + 7) / 8 - (held.length + 7) / 8
        (freeBlocks s.sets < needed → fails .noSpace) ∧
        (needed ≤ freeBlocks s.sets →
          let after := s.sets.set i (.opened t.ring new)
          exec (.stagePut k) s = .next { s with
            sets := after
            slots := s.slots.set k (some (answered t r .ok
              (.stage i.val (freeBlocks after) (freeSetIds after) 0 new.length ((new.length + 7) / 8) .free 0 0))) })

/-- R104: putting items keeps a field map: a field named holds its last value, every other keeps its own, no field is
doubled, the fields held keep their places, and the new ones follow in the order of their first appearance. R98: merging
gives a named field its value and keeps every other, and the fields are all a profile holds. R96: ids, ranges and defaults
are the catalogue's 34, and no other id names a field. R97: the failing relation is the first of the nine that fails. -/
def Obligations.PutKeepsTheFieldMap : Prop :=
  (∀ (base : Profile) (items : List Item), (∀ it ∈ items, it.1.range.1 ≤ it.2.toNat ∧ it.2.toNat ≤ it.1.range.2) →
     ∀ f : Field, (base.merge items).value f = match items.reverse.find? (fun it => it.1 == f) with
       | none => base.value f
       | some it => it.2.toNat) ∧
  (∀ p q : Profile, (∀ f, p.value f = q.value f) → p = q) ∧
  (∀ row ∈ catalogue, fieldOfId row.id = some row.field ∧ row.field.range = (row.least, row.greatest) ∧
     Profile.defaults.value row.field = row.default) ∧
  catalogue.length = 34 ∧ (∀ id, id ∉ catalogue.map CatalogueRow.id → fieldOfId id = none) ∧
  (∀ p : Profile, (p.failingRelation = 0 ↔ ∀ n, Relation p n) ∧
     ∀ n, 1 ≤ n → (p.failingRelation = n ↔ ¬Relation p n ∧ ∀ m < n, Relation p m)) ∧
  ∀ (items held : List Item), (held.map (·.1)).Nodup →
    ((putItems items held).map (·.1)).Nodup ∧
    held.map (·.1) <+: (putItems items held).map (·.1) ∧
    (∀ f v, (f, v) ∈ putItems items held ↔
      items.reverse.find? (fun it => it.1 == f) = some (f, v) ∨ (∀ it ∈ items, it.1 ≠ f) ∧ (f, v) ∈ held) ∧
    ((putItems items held).map (·.1)).drop held.length =
      (items.map (·.1)).reverse.dedup.reverse.filter fun f => !(held.map (·.1)).contains f

/-- R106, R107, R108, R117: STAGE_COMMIT's checks in their order; IMMEDIATE installs the merged profile, frees the set and
raises APPLIED against it, or completes with PROFILE_INVALID; AT_FRAME arms the set and places it in frame order. -/
def Obligations.StageCommit : Prop :=
  ∀ (s : State) (k : SlotId) (t : Task) (r : Block64), Runs s k t r 0x1A →
    let reply := fun status relation => exec (.stageCommit k) s = .next { s with
      slots := s.slots.set k (some (answered t r status
        (.stage (recordByte8 r) (freeBlocks s.sets) (freeSetIds s.sets) relation 0 0 .free 0 0))) }
    (8 ≤ recordByte8 r ∨ 32 ≤ recordByte9 r ∨ 2 ≤ recordByteA r → reply .badField 0) ∧
    ∀ (i : SetId) (id : StationId), recordByte8 r = i.val → recordByte9 r = id.val → recordByteA r ≤ 1 →
      ((s.sets[i]).state ≠ .opened → reply .noSet 0) ∧
      ((s.sets[i]).state = .opened → (s.sets[i]).owner ≠ some t.ring → reply .notOwner 0) ∧
      ∀ items, s.sets[i] = .opened t.ring items →
        (s.stations[id] = .free → reply .noStation 0) ∧
        (∀ c, (s.stations[id]).station = some c →
          (c.homeRing ≠ t.ring → reply .wrongRing 0) ∧
          (c.homeRing = t.ring → (s.stations[id]).state = .closing → reply .stationClosing 0)) ∧
        ∀ c, s.stations[id] = .opened c → c.homeRing = t.ring →
          let p := c.profile.merge items
          let freed := s.sets.set i .free
          (recordByteA r = 0 → ¬ConsistentProfile p → reply .profileInvalid p.failingRelation) ∧
          (recordByteA r = 0 → ConsistentProfile p → exec (.stageCommit k) s = .next { s with
            sets := freed
            stations := s.stations.set id (.opened { c with
              profile := p, pendingSet := c.pendingSet ||| (0x040#9 &&& p.noticeMask) })
            slots := s.slots.set k (some (answered t r .ok
              (.stage i.val (freeBlocks freed) (freeSetIds freed) 0 0 0 .free 0 0))) }) ∧
          (recordByteA r = 1 → 2 ≤ c.armed.length → reply .armLimit 0) ∧
          (recordByteA r = 1 → c.armed.length < 2 → (∃ a ∈ c.armed, (s.sets[a]).frame = recordFrame r) →
            reply .armConflict 0) ∧
          (recordByteA r = 1 → c.armed.length < 2 → (∀ a ∈ c.armed, (s.sets[a]).frame ≠ recordFrame r) →
            let armed := s.sets.set i (.armed t.ring items id (recordFrame r))
            let first := ∀ a ∈ c.armed, frameAfter (s.sets[a]).frame (recordFrame r) = true
            let place := fun position list => exec (.stageCommit k) s = .next { s with
              sets := armed
              stations := s.stations.set id (.opened { c with armed := list })
              slots := s.slots.set k (some (answered t r .ok
                (.stage i.val (freeBlocks armed) (freeSetIds armed) 0 0 0 .free position (recordFrame r)))) }
            (first → place 0 (i :: c.armed)) ∧ (¬first → place 1 (c.armed ++ [i])))

/-! ## Notices -/

/-- R154, R155, R156, R193: the NOTICE of a waiting station is emitted as one event where its ring has an unreserved free
slot and the controller is RUNNING or QUIESCING; where any of the conditions fails, nothing happens. The record's 32 bytes
stand as R193 and the header table lay them out; every byte they do not name is 0. -/
def Obligations.NoticeEmission : Prop :=
  (∀ (id : StationId) (c : Station), Laid 32 (noticeContents id c) (noticeBytes id c)) ∧
  ∀ (s : State) (id : StationId),
    (∀ c q, s.stations[id] = .opened c → s.resultRings[c.noticeRing] = some q → Waiting c →
      (q.placed - q.released).toNat + q.reserved < q.size → s.controller = .running ∨ s.controller = .quiescing →
      exec (.noticeEmission id) s = .next { s with
        stations := s.stations.set id (.opened
          { c with pendingSet := 0, noticeArmed := false, noticeInFlight := true })
        resultRings := s.resultRings.set c.noticeRing (some { q with placed := q.placed + 1 })
        transfers := s.transfers ++ [requested s (.notice id c.noticeRing q.placed)
          (q.base + BitVec.ofNat 64 (32 * (q.placed.toNat % q.size))) (.write (noticeBytes id c))] }) ∧
    ((∀ c, s.stations[id] = .opened c → ¬Waiting c ∨ (s.controller ≠ .running ∧ s.controller ≠ .quiescing) ∨
        ∀ q, s.resultRings[c.noticeRing] = some q → q.size ≤ (q.placed - q.released).toNat + q.reserved) →
      exec (.noticeEmission id) s = .next s)

/-! ## The regulation arithmetic -/

/-- R33, R34, R35, R36: metering is the weighted mean over the used cells, rounded down, at most 4095 for 12-bit cells;
the clip count counts used cells at CLIP_LIMIT or above, at most one a cell; the veto holds above CLIP_CELLS_MAX; with no
weight there is no mean, no clip count and no veto. R32: a valid cell inside the window has the weight of its column in its
row's field, any other cell none. R37: a synthetic grid has C × R valid cells with clip fraction 0, of mean B for FLAT and
min(4095, B + (c + r) × S) for RAMP. -/
def Obligations.MeteringIsTheWeightedMean : Prop :=
  (∀ (p : Profile) (columns c : Nat) (r : Fin 8) (cell : Cell), c < columns → columns ≤ 8 →
     usedWeight p columns (r.val * columns + c) cell =
       if (p.colLo ≤ c ∧ c ≤ p.colHi) ∧ (p.rowLo ≤ r.val ∧ r.val ≤ p.rowHi) ∧ cell.valid = true then
         ((p.weightRows[r]).extractLsb' (4 * c) 4).toNat
       else 0) ∧
  (∀ (ramp : Bool) (base slope columns rows : Nat),
     (synthesize ramp base slope columns rows).length = columns * rows ∧
     ∀ c r, c < columns → r < rows → (synthesize ramp base slope columns rows)[r * columns + c]? = some
       { mean := if ramp then min 4095 (base + (c + r) * slope) else base, clip := 0, valid := true }) ∧
  ∀ (p : Profile) (columns : Nat) (cells : List Cell), (∀ x ∈ cells, x.mean ≤ 4095) →
    let used := fun k => usedWeight p columns k (cells.getD k ⟨0, 0, false⟩)
    let weight := ∑ k ∈ Finset.range cells.length, used k
    let weighted := ∑ k ∈ Finset.range cells.length, used k * (cells.getD k ⟨0, 0, false⟩).mean
    let clipped := ((List.range cells.length).filter fun k =>
      decide (0 < used k) && decide (p.clipLimit ≤ (cells.getD k ⟨0, 0, false⟩).clip)).length
    let m := meter p columns cells
    (weight ≠ 0 → m.mean = some (weighted / weight) ∧ weighted / weight ≤ 4095) ∧
    (weight = 0 → m.mean = none ∧ m.clip = 0 ∧ m.veto = false) ∧
    m.clip = clipped ∧ m.clip ≤ cells.length ∧ (m.veto = true ↔ p.clipCellsMax < m.clip)

/-- R64, R65: quantization in its three steps; from a clamped value it stays within the integration range and is monotone;
gain and level are clamped only. A quantized value quantizes to itself, but for one frame exactly under a QUANTUM that
does not divide it, which R65 lowers to the multiple below (log entry 9). R62, R63: a value of integration is clamped to
its floor and cap and then quantized. -/
def Obligations.QuantizationFollowsItsSteps : Prop :=
  (∀ (p : Profile) (lines v : Nat),
     let cap := min p.intMax (lines * (1 + p.extMax))
     let floor := min p.intMin cap
     settleI p lines v = quantize lines p.quantum floor (max floor (min v cap))) ∧
  ∀ (lines quantum floor cap : Nat), 1 ≤ lines → floor ≤ cap →
    let q := quantize lines quantum floor
    (∀ i, lines < i → q i = max (i / lines * lines) floor) ∧
    (∀ i, i ≤ lines → 0 < quantum → quantum ≤ i → q i = max (i / quantum * quantum) floor) ∧
    (∀ i, i ≤ lines → quantum = 0 ∨ i < quantum → q i = max i floor) ∧
    (∀ i, floor ≤ i → i ≤ cap → floor ≤ q i ∧ q i ≤ cap) ∧
    (∀ i j, i ≤ j → q i ≤ q j) ∧
    (∀ i, quantum = 0 ∨ lines < quantum ∨ lines % quantum = 0 ∨ i ≤ lines ∨ 2 * lines ≤ i → q (q i) = q i) ∧
    (0 < quantum → quantum ≤ lines → q lines = max (lines / quantum * quantum) floor) ∧
    ∀ (p : Profile) (v : Nat), (16 ≤ p.gainMax → settleG p v = max 16 (min v p.gainMax)) ∧
      (p.lvlMin ≤ p.lvlMax → settleL p v = max p.lvlMin (min v p.lvlMax))

/-- R66, R67: the three steps of the decomposition, in the order of the actuators that ORDER names. R67, R70: under every
ORDER, a product at most the least product decomposes to the floor setting, and every allocated
value lies within its range, so every allocated product lies between the least and the greatest; a product at least the
greatest decomposes to the ceiling setting where the quantized cap quantizes to itself (log entry 9). -/
def Obligations.DecompositionKeepsItsBounds : Prop :=
  (∀ (p : Profile) (lines product : Nat),
     let floor := min p.intMin (min p.intMax (lines * (1 + p.extMax)))
     let least := fun a : Actuator => match a with | .i => floor | .g => 16 | .l => p.lvlMin
     let treated := fun (a : Actuator) (v : Nat) =>
       match a with | .i => settleI p lines v | .g => settleG p v | .l => settleL p v
     let value := fun a : Actuator => match a with
       | .i => (decompose p lines product).i | .g => (decompose p lines product).g | .l => (decompose p lines product).l
     let follows := fun p1 p2 p3 : Actuator =>
       value p1 = treated p1 (product / (least p2 * least p3)) ∧
       value p2 = treated p2 (product / (value p1 * least p3)) ∧ value p3 = treated p3 (product / (value p1 * value p2))
     match p.order with
       | .igl => follows .i .g .l
       | .ilg => follows .i .l .g
       | .lig => follows .l .i .g
       | .lgi => follows .l .g .i
       | .gil => follows .g .i .l
       | .gli => follows .g .l .i) ∧
  ∀ (p : Profile) (lines : Nat), ConsistentProfile p → ProfileInRange p → 16 ≤ lines → lines ≤ 65535 →
    let cap := min p.intMax (lines * (1 + p.extMax))
    let floor := min p.intMin cap
    let top := quantize lines p.quantum floor cap
    (quantize lines p.quantum floor top = top → ∀ product, top * p.gainMax * p.lvlMax ≤ product →
      decompose p lines product = ⟨top, p.gainMax, p.lvlMax⟩) ∧
    (∀ product, 1 ≤ product → product ≤ floor * 16 * p.lvlMin → decompose p lines product = ⟨floor, 16, p.lvlMin⟩) ∧
    ∀ product, 1 ≤ product →
      let v := decompose p lines product
      (floor ≤ v.i ∧ v.i ≤ top) ∧ (16 ≤ v.g ∧ v.g ≤ p.gainMax) ∧ (p.lvlMin ≤ v.l ∧ v.l ≤ p.lvlMax) ∧
        floor * 16 * p.lvlMin ≤ v.i * v.g * v.l ∧ v.i * v.g * v.l ≤ top * p.gainMax * p.lvlMax

/-- R51 to R55: the new product under each PACE: the ratios of FINE and COARSE under the rush thresholds, and the clamped,
damped and nudged aim of PROPORTIONAL. Every step up raises the product and every step down lowers it, under each PACE, with the
rush and the nudge; a proportional step lies between a quarter and four times the product. A rush lies outside the outer
band; the target lies in the inner band, the raw aim from the product up for a dark mean and below it for a bright one; and
a veto response is neither rushed nor nudged. -/
def Obligations.StepsMoveTheProduct : Prop :=
  (∀ (p : Profile) (e mc : Nat) (up : Bool), p.pace ≠ .proportional →
     stepProduct p e mc up =
       if p.rushHi < mc then e / 2 else if mc < p.rushLo then 2 * e
       else if p.pace = .fine then (if up then e * 17 / 16 else e * 15 / 16)
       else if up then e * 5 / 4 else e * 3 / 4) ∧
  (∀ (p : Profile) (e mc : Nat) (up : Bool), p.pace = .proportional → p.damp ≤ 16 →
     let raw := e * ((p.innerLo + p.innerHi) / 2) / max mc 1
     let aim : Int := max (e / 4 : Nat) (min (4 * e : Nat) raw)
     let damped : Int := e + ((aim - e) * p.damp).tdiv 16
     (stepProduct p e mc up : Int) = if damped = e then ((if up then e + 1 else e - 1 : Nat) : Int) else damped) ∧
  ∀ (p : Profile) (e mc : Nat), ConsistentProfile p → 1 ≤ p.damp → p.damp ≤ 16 → 16 ≤ e →
    (mc < p.innerLo → e < stepProduct p e mc true) ∧ (p.innerHi < mc → stepProduct p e mc false < e) ∧
    (p.innerHi < mc → 1 ≤ stepProduct p e mc false) ∧
    (p.pace = .proportional → mc < p.innerLo → stepProduct p e mc true ≤ 4 * e) ∧
    (p.pace = .proportional → p.innerHi < mc → e / 4 ≤ stepProduct p e mc false) ∧
    (p.pace ≠ .proportional → p.rushHi < mc → stepProduct p e mc false = e / 2) ∧
    (p.pace ≠ .proportional → mc < p.rushLo → stepProduct p e mc true = 2 * e) ∧
    (p.rushHi < mc → p.outerHi < mc) ∧ (mc < p.rushLo → mc < p.outerLo) ∧
    (let target := (p.innerLo + p.innerHi) / 2
     (p.innerLo ≤ target ∧ target ≤ p.innerHi) ∧ (mc < p.innerLo → e ≤ e * target / max mc 1) ∧
       (p.innerHi < mc → e * target / max mc 1 < e)) ∧
    (∀ entry : LoopState, chooseMove p entry true mc = .veto) ∧ vetoProduct e = e * 3 / 4

/-- R79, R82: the trim leaves the in-force entry as the oldest, removing exactly the entries before it: of the entries
from the newest back to the second, the first not after the frame, else the oldest. R80, R81: a push makes its entry the
newest; the history before it is kept whole when its newest was a base entry or is earlier than the push's frame, and else
loses the entries whose frame is present and not earlier. -/
def Obligations.TrimLeavesTheEntryInForce : Prop :=
  (∀ (x : Frame) (entry : Entry) (c : Station),
     let history := c.older ++ [c.newest]
     let earlier := fun e : Entry => e.effective = none ∨ ∃ y, e.effective = some y ∧ frameAfter x y = true
     (earlier c.newest → c.push x entry = { c with older := history, newest := entry }) ∧
     (¬earlier c.newest → ∃ kept, c.push x entry = { c with older := kept, newest := entry } ∧ kept.Sublist history ∧
       ∀ e, e ∈ kept ↔ e ∈ history ∧ earlier e)) ∧
  ∀ (f : Frame) (older : List Entry) (newest : Entry),
    let history := older ++ [newest]
    let kept := trimOlder f older newest ++ [newest]
    (∃ dropped, history = dropped ++ kept) ∧
    kept.head? = some (inForce f older newest) ∧
    (∀ e ∈ kept.tail, e.notAfter f = false) ∧
    (kept ≠ history → (inForce f older newest).notAfter f = true) ∧
    inForce f (trimOlder f older newest) newest = inForce f older newest

/-- R87 to R89, R110, R112, R113: the gap test against GAP_LIMIT times the span in force for the last frame, and its action
under each policy; then armed application in list order: a set due is merged over the profile as it stands and installed
with APPLIED, or dropped with REJECTED, and is FREE either way; a set after the frame stays. -/
def Obligations.StagesFourAndFive : Prop :=
  (∀ (f : Frame) (c : Station),
     let gap := ∃ last, c.lastFrame = some last ∧
       c.profile.gapLimit * (inForce last c.older c.newest).span < (f - last).toNat
     let g := gapStage f c
     (¬gap → g.station = c ∧ g.raises = []) ∧
     (gap → c.profile.gapPolicy = .report → g.station = c ∧ g.raises = [.gap]) ∧
     (gap → c.profile.gapPolicy = .reseek → c.loop = .frozen ∨ c.loop = .seeking →
       g.station = { c with older := [] } ∧ g.raises = [.gap]) ∧
     (gap → c.profile.gapPolicy = .reseek → c.loop ≠ .frozen → c.loop ≠ .seeking →
       g.station = { c with older := [], loop := .seeking } ∧ g.raises = [.gap, .seek])) ∧
  ∀ (f : Frame) (c : Station) (sets : Vector StagingSet 8),
    armedStage f c sets = applySets f c.armed c sets ∧ applySets f [] c sets = (c, sets) ∧
    ∀ (a : SetId) (rest : List SetId) (owner : WorkRingId) (items : List Item) (id : StationId) (e : Frame),
      sets[a] = .armed owner items id e →
      let p := c.profile.merge items
      (frameAfter e f = true → applySets f (a :: rest) c sets = applySets f rest c sets) ∧
      (frameAfter e f = false → ConsistentProfile p → applySets f (a :: rest) c sets = applySets f rest
        { c with profile := p, pendingSet := c.pendingSet ||| (0x040#9 &&& p.noticeMask), armed := c.armed.erase a }
        (sets.set a .free)) ∧
      (frameAfter e f = false → ¬ConsistentProfile p → applySets f (a :: rest) c sets = applySets f rest
        { c with pendingSet := joined c 0x080#9, armed := c.armed.erase a } (sets.set a .free))

/-! ## What every step keeps -/

/-- The invariants below hold after reset. -/
def Obligations.ResetIsSound : Prop :=
  WorkRingsSound State.reset ∧ TaskTableSound State.reset ∧ ResultRingsSound State.reset ∧ StoppedEmpty State.reset ∧
    PoolSound State.reset ∧ ArmedSound State.reset ∧ ProfilesSound State.reset ∧ RegulationSound State.reset ∧
    State.reset.hostMemory.wf = true

/-- R120, R124: a work ring's posted index never runs more than its size ahead of its taken index, a station ring's weight
stays 1 to 8, the run counter at most 8 and the pointer on a station ring, whatever the step. R132: a ring's in-flight
count stays the number of slots holding its tasks and within its limit, and a task's ring present (given that the states
that hold no task or ring are empty, which every step keeps too). -/
def Obligations.WorkRingsStaySound : Prop :=
  (∀ s t : State, WorkRingsSound s → step s = .next t → WorkRingsSound t) ∧
  ∀ s t : State, TaskTableSound s → StoppedEmpty s → step s = .next t → TaskTableSound t

/-- R143, R145, R146: unreleased records and reserved slots never exceed a result ring's size, and the writes of a ring in
flight stand at rising indexes from its produced to its placed index, each with a writer bound to the ring, whatever the
step (given the task table's counts and the empty states, which every step keeps too). -/
def Obligations.ResultRingsStaySound : Prop :=
  ∀ s t : State, ResultRingsSound s → TaskTableSound s → StoppedEmpty s → step s = .next t → ResultRingsSound t

/-- R2, R132, R164: OFF and STARTING hold no task, ring, station or set, and QUIESCED and HALTED no task, whatever the
step. -/
def Obligations.StoppedStatesStayEmpty : Prop :=
  ∀ s t : State, StoppedEmpty s → step s = .next t → StoppedEmpty t

/-- R100, R101, R103: no set ever holds a field twice, and the sets never hold more than the pool's 24 blocks. R108: an
armed list holds at most 2 sets, ARMED for its station by its home ring, with distinct frames of which the second is not
the earlier, and every ARMED set stands in its station's list. -/
def Obligations.PoolStaysSound : Prop :=
  (∀ s t : State, PoolSound s → step s = .next t → PoolSound t) ∧
  ∀ s t : State, ArmedSound s → step s = .next t → ArmedSound t

/-- R97: the profile of every OPEN or CLOSING station is consistent, whatever the step. -/
def Obligations.ProfilesStayConsistent : Prop :=
  ∀ s t : State, ProfilesSound s → step s = .next t → ProfilesSound t

/-- R61, R96: every history entry's product is I × G × L, its values lie in the device-wide ranges and its span in 1 to 8;
profiles and staged values stay in their catalogue ranges; whatever the step. -/
def Obligations.RegulationStaysInRange : Prop :=
  ∀ s t : State, RegulationSound s → step s = .next t → RegulationSound t

/-- The host memory the device has written keeps the canonical form that the model chose for it (log entry 10), whatever the
step. -/
def Obligations.HostMemoryStaysCanonical : Prop :=
  ∀ s t : State, s.hostMemory.wf = true → step s = .next t → t.hostMemory.wf = true
end

