-- ==== Sys2Proof/Laws/Memory.lean ====
section
/-! SUPPORT. The laws of the host memory the device writes: a read after a write, the canonical form kept by every
operation, and the part of a write that failed. -/
namespace Sys2Proof.Machine

/-! ## One byte -/

theorem Memory.read_write_same (m : Memory) (a : Nat) (b : Byte) : (m.write a b).read a = some b := by
  induction m with
  | nil => simp [Memory.write, Memory.read]
  | cons c rest ih =>
    unfold Memory.write
    split
    · simp [Memory.read]
    · split
      · simp [Memory.read]
      · rename_i h
        simp only [Memory.read, if_neg (Ne.symm h)]
        exact ih

theorem Memory.read_write_other (m : Memory) {a x : Nat} (b : Byte) (h : x ≠ a) : (m.write a b).read x = m.read x := by
  induction m with
  | nil => simp [Memory.write, Memory.read, Ne.symm h]
  | cons c rest ih =>
    unfold Memory.write
    split
    · simp [Memory.read, Ne.symm h]
    · split
      · rename_i e
        have hc : c.1 ≠ x := fun e' => h (e'.symm.trans e.symm)
        simp [Memory.read, Ne.symm h, hc]
      · simp only [Memory.read, ih]

theorem Memory.read_write (m : Memory) (a x : Nat) (b : Byte) :
    (m.write a b).read x = if x = a then some b else m.read x := by
  split
  · next h => subst h; exact m.read_write_same x b
  · next h => exact m.read_write_other b h

/-! ## The canonical form -/

theorem Memory.wf_iff (m : Memory) : m.wf = true ↔ m.Pairwise fun c d => c.1 < d.1 := by
  induction m with
  | nil => simp [Memory.wf]
  | cons c rest ih =>
    cases rest with
    | nil => simp [Memory.wf]
    | cons d rest =>
      rw [Memory.wf, Bool.and_eq_true, decide_eq_true_iff, ih, List.pairwise_cons (a := c)]
      constructor
      · rintro ⟨hcd, hp⟩
        refine ⟨fun e he => ?_, hp⟩
        rcases List.mem_cons.mp he with rfl | he
        · exact hcd
        · exact hcd.trans (List.rel_of_pairwise_cons hp he)
      · rintro ⟨hall, hp⟩
        exact ⟨hall d (by simp), hp⟩

theorem Memory.mem_write {m : Memory} {a : Nat} {b : Byte} {c : Host.Cell} (h : c ∈ m.write a b) :
    c = (a, b) ∨ c ∈ m := by
  induction m with
  | nil => exact .inl (by simpa [Memory.write] using h)
  | cons d rest ih =>
    unfold Memory.write at h
    split at h
    · exact List.mem_cons.mp h
    · split at h
      · rcases List.mem_cons.mp h with h | h
        · exact .inl h
        · exact .inr (List.mem_cons_of_mem _ h)
      · rcases List.mem_cons.mp h with h | h
        · exact .inr (h ▸ List.mem_cons_self ..)
        · exact (ih h).imp id (List.mem_cons_of_mem _)

theorem Memory.write_wf {m : Memory} (h : m.wf = true) (a : Nat) (b : Byte) : (m.write a b).wf = true := by
  rw [Memory.wf_iff] at h ⊢
  induction m with
  | nil => simp [Memory.write]
  | cons c rest ih =>
    have hall := (List.pairwise_cons.mp h).1
    have hrest := (List.pairwise_cons.mp h).2
    unfold Memory.write
    split
    · next hlt =>
      refine List.pairwise_cons.mpr ⟨fun d hd => ?_, h⟩
      rcases List.mem_cons.mp hd with rfl | hd
      · exact hlt
      · exact hlt.trans (hall d hd)
    · split
      · next heq => exact List.pairwise_cons.mpr ⟨fun d hd => heq ▸ hall d hd, hrest⟩
      · next hge hne =>
        refine List.pairwise_cons.mpr ⟨fun d hd => ?_, ih hrest⟩
        rcases Memory.mem_write hd with rfl | hd
        · exact lt_of_le_of_ne (not_lt.mp hge) (Ne.symm hne)
        · exact hall d hd

theorem Memory.writeBytes_wf {m : Memory} (h : m.wf = true) (a : Address) (data : List Byte) :
    (m.writeBytes a data).wf = true := by
  induction data generalizing m a with
  | nil => exact h
  | cons b bs ih => exact ih (Memory.write_wf h _ _) _

theorem Memory.writePart_wf {m : Memory} (h : m.wf = true) (draw : Nat) (a : Address) (k : Nat) (data : List Byte) :
    (m.writePart draw a k data).wf = true := by
  induction data generalizing m a k with
  | nil => exact h
  | cons b bs ih =>
    unfold Memory.writePart
    split
    · exact ih (Memory.write_wf h _ _) _ _
    · exact ih h _ _

/-! ## Part of a write -/

/-- Each byte after a failed or abandoned write is what it was, or the byte the write puts at its address. -/
theorem Memory.read_writePart (draw : Nat) (m : Memory) (a : Address) (k : Nat) (data : List Byte) (x : Nat) :
    (m.writePart draw a k data).read x = m.read x ∨
      ∃ i, i < data.length ∧ x = (a + BitVec.ofNat 64 i).toNat ∧ (m.writePart draw a k data).read x = data[i]? := by
  induction data generalizing m a k with
  | nil => exact .inl rfl
  | cons b bs ih =>
    unfold Memory.writePart
    rcases ih (if Config.linkPassed draw k then m.write a.toNat b else m) (a + 1) (k + 1) with h | ⟨i, hi, hx, hr⟩
    · rw [h]
      split
      · rw [Memory.read_write]
        split
        · next hx => exact .inr ⟨0, by simp, by simpa using hx, by simp⟩
        · exact .inl rfl
      · exact .inl rfl
    · refine .inr ⟨i + 1, by simpa using hi, ?_, by simpa using hr⟩
      rw [hx]
      congr 1
      rw [BitVec.add_assoc]
      congr 1
      apply BitVec.eq_of_toNat_eq
      simp [Nat.add_comm]

end Sys2Proof.Machine
end

