-- ==== Sys2Proof/Laws/State.lean ====
section
/-! SUPPORT. The state after one update, field by field: what the update sets, and that it leaves every other field. -/
namespace Sys2Proof.Machine

section setSlot
variable (s : State) (k : SlotId) (t : Option Task)
@[simp] theorem State.setSlot_controller : (s.setSlot k t).controller = s.controller := rfl
@[simp] theorem State.setSlot_quiesceBit : (s.setSlot k t).quiesceBit = s.quiesceBit := rfl
@[simp] theorem State.setSlot_setupLo : (s.setSlot k t).setupLo = s.setupLo := rfl
@[simp] theorem State.setSlot_setupHi : (s.setSlot k t).setupHi = s.setupHi := rfl
@[simp] theorem State.setSlot_resetCause : (s.setSlot k t).resetCause = s.resetCause := rfl
@[simp] theorem State.setSlot_haltCause : (s.setSlot k t).haltCause = s.haltCause := rfl
@[simp] theorem State.setSlot_rejection : (s.setSlot k t).rejection = s.rejection := rfl
@[simp] theorem State.setSlot_cause : (s.setSlot k t).cause = s.cause := rfl
@[simp] theorem State.setSlot_mask : (s.setSlot k t).mask = s.mask := rfl
@[simp] theorem State.setSlot_heldSetup : (s.setSlot k t).heldSetup = s.heldSetup := rfl
@[simp] theorem State.setSlot_writeBackAddress : (s.setSlot k t).writeBackAddress = s.writeBackAddress := rfl
@[simp] theorem State.setSlot_workRings : (s.setSlot k t).workRings = s.workRings := rfl
@[simp] theorem State.setSlot_slots : (s.setSlot k t).slots = s.slots.set k t := rfl
@[simp] theorem State.setSlot_pointer : (s.setSlot k t).pointer = s.pointer := rfl
@[simp] theorem State.setSlot_runCounter : (s.setSlot k t).runCounter = s.runCounter := rfl
@[simp] theorem State.setSlot_stations : (s.setSlot k t).stations = s.stations := rfl
@[simp] theorem State.setSlot_sets : (s.setSlot k t).sets = s.sets := rfl
@[simp] theorem State.setSlot_resultRings : (s.setSlot k t).resultRings = s.resultRings := rfl
@[simp] theorem State.setSlot_linkIsUp : (s.setSlot k t).linkIsUp = s.linkIsUp := rfl
@[simp] theorem State.setSlot_link : (s.setSlot k t).link = s.link := rfl
@[simp] theorem State.setSlot_transfers : (s.setSlot k t).transfers = s.transfers := rfl
@[simp] theorem State.setSlot_hostMemory : (s.setSlot k t).hostMemory = s.hostMemory := rfl
@[simp] theorem State.setSlot_messages : (s.setSlot k t).messages = s.messages := rfl
@[simp] theorem State.setSlot_draws : (s.setSlot k t).draws = s.draws := rfl
@[simp] theorem State.setSlot_epoch : (s.setSlot k t).epoch = s.epoch := rfl
@[simp] theorem State.setSlot_pending : (s.setSlot k t).pending = s.pending := rfl
end setSlot

section setStation
variable (s : State) (id : StationId) (c : Context)
@[simp] theorem State.setStation_controller : (s.setStation id c).controller = s.controller := rfl
@[simp] theorem State.setStation_quiesceBit : (s.setStation id c).quiesceBit = s.quiesceBit := rfl
@[simp] theorem State.setStation_setupLo : (s.setStation id c).setupLo = s.setupLo := rfl
@[simp] theorem State.setStation_setupHi : (s.setStation id c).setupHi = s.setupHi := rfl
@[simp] theorem State.setStation_resetCause : (s.setStation id c).resetCause = s.resetCause := rfl
@[simp] theorem State.setStation_haltCause : (s.setStation id c).haltCause = s.haltCause := rfl
@[simp] theorem State.setStation_rejection : (s.setStation id c).rejection = s.rejection := rfl
@[simp] theorem State.setStation_cause : (s.setStation id c).cause = s.cause := rfl
@[simp] theorem State.setStation_mask : (s.setStation id c).mask = s.mask := rfl
@[simp] theorem State.setStation_heldSetup : (s.setStation id c).heldSetup = s.heldSetup := rfl
@[simp] theorem State.setStation_writeBackAddress : (s.setStation id c).writeBackAddress = s.writeBackAddress := rfl
@[simp] theorem State.setStation_workRings : (s.setStation id c).workRings = s.workRings := rfl
@[simp] theorem State.setStation_slots : (s.setStation id c).slots = s.slots := rfl
@[simp] theorem State.setStation_pointer : (s.setStation id c).pointer = s.pointer := rfl
@[simp] theorem State.setStation_runCounter : (s.setStation id c).runCounter = s.runCounter := rfl
@[simp] theorem State.setStation_stations : (s.setStation id c).stations = s.stations.set id c := rfl
@[simp] theorem State.setStation_sets : (s.setStation id c).sets = s.sets := rfl
@[simp] theorem State.setStation_resultRings : (s.setStation id c).resultRings = s.resultRings := rfl
@[simp] theorem State.setStation_linkIsUp : (s.setStation id c).linkIsUp = s.linkIsUp := rfl
@[simp] theorem State.setStation_link : (s.setStation id c).link = s.link := rfl
@[simp] theorem State.setStation_transfers : (s.setStation id c).transfers = s.transfers := rfl
@[simp] theorem State.setStation_hostMemory : (s.setStation id c).hostMemory = s.hostMemory := rfl
@[simp] theorem State.setStation_messages : (s.setStation id c).messages = s.messages := rfl
@[simp] theorem State.setStation_draws : (s.setStation id c).draws = s.draws := rfl
@[simp] theorem State.setStation_epoch : (s.setStation id c).epoch = s.epoch := rfl
@[simp] theorem State.setStation_pending : (s.setStation id c).pending = s.pending := rfl
end setStation

section setSet
variable (s : State) (i : SetId) (x : StagingSet)
@[simp] theorem State.setSet_controller : (s.setSet i x).controller = s.controller := rfl
@[simp] theorem State.setSet_quiesceBit : (s.setSet i x).quiesceBit = s.quiesceBit := rfl
@[simp] theorem State.setSet_setupLo : (s.setSet i x).setupLo = s.setupLo := rfl
@[simp] theorem State.setSet_setupHi : (s.setSet i x).setupHi = s.setupHi := rfl
@[simp] theorem State.setSet_resetCause : (s.setSet i x).resetCause = s.resetCause := rfl
@[simp] theorem State.setSet_haltCause : (s.setSet i x).haltCause = s.haltCause := rfl
@[simp] theorem State.setSet_rejection : (s.setSet i x).rejection = s.rejection := rfl
@[simp] theorem State.setSet_cause : (s.setSet i x).cause = s.cause := rfl
@[simp] theorem State.setSet_mask : (s.setSet i x).mask = s.mask := rfl
@[simp] theorem State.setSet_heldSetup : (s.setSet i x).heldSetup = s.heldSetup := rfl
@[simp] theorem State.setSet_writeBackAddress : (s.setSet i x).writeBackAddress = s.writeBackAddress := rfl
@[simp] theorem State.setSet_workRings : (s.setSet i x).workRings = s.workRings := rfl
@[simp] theorem State.setSet_slots : (s.setSet i x).slots = s.slots := rfl
@[simp] theorem State.setSet_pointer : (s.setSet i x).pointer = s.pointer := rfl
@[simp] theorem State.setSet_runCounter : (s.setSet i x).runCounter = s.runCounter := rfl
@[simp] theorem State.setSet_stations : (s.setSet i x).stations = s.stations := rfl
@[simp] theorem State.setSet_sets : (s.setSet i x).sets = s.sets.set i x := rfl
@[simp] theorem State.setSet_resultRings : (s.setSet i x).resultRings = s.resultRings := rfl
@[simp] theorem State.setSet_linkIsUp : (s.setSet i x).linkIsUp = s.linkIsUp := rfl
@[simp] theorem State.setSet_link : (s.setSet i x).link = s.link := rfl
@[simp] theorem State.setSet_transfers : (s.setSet i x).transfers = s.transfers := rfl
@[simp] theorem State.setSet_hostMemory : (s.setSet i x).hostMemory = s.hostMemory := rfl
@[simp] theorem State.setSet_messages : (s.setSet i x).messages = s.messages := rfl
@[simp] theorem State.setSet_draws : (s.setSet i x).draws = s.draws := rfl
@[simp] theorem State.setSet_epoch : (s.setSet i x).epoch = s.epoch := rfl
@[simp] theorem State.setSet_pending : (s.setSet i x).pending = s.pending := rfl
end setSet

section setWorkRing
variable (s : State) (n : WorkRingId) (w : Option WorkRing)
@[simp] theorem State.setWorkRing_controller : (s.setWorkRing n w).controller = s.controller := rfl
@[simp] theorem State.setWorkRing_quiesceBit : (s.setWorkRing n w).quiesceBit = s.quiesceBit := rfl
@[simp] theorem State.setWorkRing_setupLo : (s.setWorkRing n w).setupLo = s.setupLo := rfl
@[simp] theorem State.setWorkRing_setupHi : (s.setWorkRing n w).setupHi = s.setupHi := rfl
@[simp] theorem State.setWorkRing_resetCause : (s.setWorkRing n w).resetCause = s.resetCause := rfl
@[simp] theorem State.setWorkRing_haltCause : (s.setWorkRing n w).haltCause = s.haltCause := rfl
@[simp] theorem State.setWorkRing_rejection : (s.setWorkRing n w).rejection = s.rejection := rfl
@[simp] theorem State.setWorkRing_cause : (s.setWorkRing n w).cause = s.cause := rfl
@[simp] theorem State.setWorkRing_mask : (s.setWorkRing n w).mask = s.mask := rfl
@[simp] theorem State.setWorkRing_heldSetup : (s.setWorkRing n w).heldSetup = s.heldSetup := rfl
@[simp] theorem State.setWorkRing_writeBackAddress : (s.setWorkRing n w).writeBackAddress = s.writeBackAddress := rfl
@[simp] theorem State.setWorkRing_workRings : (s.setWorkRing n w).workRings = s.workRings.set n w := rfl
@[simp] theorem State.setWorkRing_slots : (s.setWorkRing n w).slots = s.slots := rfl
@[simp] theorem State.setWorkRing_pointer : (s.setWorkRing n w).pointer = s.pointer := rfl
@[simp] theorem State.setWorkRing_runCounter : (s.setWorkRing n w).runCounter = s.runCounter := rfl
@[simp] theorem State.setWorkRing_stations : (s.setWorkRing n w).stations = s.stations := rfl
@[simp] theorem State.setWorkRing_sets : (s.setWorkRing n w).sets = s.sets := rfl
@[simp] theorem State.setWorkRing_resultRings : (s.setWorkRing n w).resultRings = s.resultRings := rfl
@[simp] theorem State.setWorkRing_linkIsUp : (s.setWorkRing n w).linkIsUp = s.linkIsUp := rfl
@[simp] theorem State.setWorkRing_link : (s.setWorkRing n w).link = s.link := rfl
@[simp] theorem State.setWorkRing_transfers : (s.setWorkRing n w).transfers = s.transfers := rfl
@[simp] theorem State.setWorkRing_hostMemory : (s.setWorkRing n w).hostMemory = s.hostMemory := rfl
@[simp] theorem State.setWorkRing_messages : (s.setWorkRing n w).messages = s.messages := rfl
@[simp] theorem State.setWorkRing_draws : (s.setWorkRing n w).draws = s.draws := rfl
@[simp] theorem State.setWorkRing_epoch : (s.setWorkRing n w).epoch = s.epoch := rfl
@[simp] theorem State.setWorkRing_pending : (s.setWorkRing n w).pending = s.pending := rfl
end setWorkRing

section setResultRing
variable (s : State) (n : ResultRingId) (q : Option ResultRing)
@[simp] theorem State.setResultRing_controller : (s.setResultRing n q).controller = s.controller := rfl
@[simp] theorem State.setResultRing_quiesceBit : (s.setResultRing n q).quiesceBit = s.quiesceBit := rfl
@[simp] theorem State.setResultRing_setupLo : (s.setResultRing n q).setupLo = s.setupLo := rfl
@[simp] theorem State.setResultRing_setupHi : (s.setResultRing n q).setupHi = s.setupHi := rfl
@[simp] theorem State.setResultRing_resetCause : (s.setResultRing n q).resetCause = s.resetCause := rfl
@[simp] theorem State.setResultRing_haltCause : (s.setResultRing n q).haltCause = s.haltCause := rfl
@[simp] theorem State.setResultRing_rejection : (s.setResultRing n q).rejection = s.rejection := rfl
@[simp] theorem State.setResultRing_cause : (s.setResultRing n q).cause = s.cause := rfl
@[simp] theorem State.setResultRing_mask : (s.setResultRing n q).mask = s.mask := rfl
@[simp] theorem State.setResultRing_heldSetup : (s.setResultRing n q).heldSetup = s.heldSetup := rfl
@[simp] theorem State.setResultRing_writeBackAddress : (s.setResultRing n q).writeBackAddress = s.writeBackAddress := rfl
@[simp] theorem State.setResultRing_workRings : (s.setResultRing n q).workRings = s.workRings := rfl
@[simp] theorem State.setResultRing_slots : (s.setResultRing n q).slots = s.slots := rfl
@[simp] theorem State.setResultRing_pointer : (s.setResultRing n q).pointer = s.pointer := rfl
@[simp] theorem State.setResultRing_runCounter : (s.setResultRing n q).runCounter = s.runCounter := rfl
@[simp] theorem State.setResultRing_stations : (s.setResultRing n q).stations = s.stations := rfl
@[simp] theorem State.setResultRing_sets : (s.setResultRing n q).sets = s.sets := rfl
@[simp] theorem State.setResultRing_resultRings : (s.setResultRing n q).resultRings = s.resultRings.set n q := rfl
@[simp] theorem State.setResultRing_linkIsUp : (s.setResultRing n q).linkIsUp = s.linkIsUp := rfl
@[simp] theorem State.setResultRing_link : (s.setResultRing n q).link = s.link := rfl
@[simp] theorem State.setResultRing_transfers : (s.setResultRing n q).transfers = s.transfers := rfl
@[simp] theorem State.setResultRing_hostMemory : (s.setResultRing n q).hostMemory = s.hostMemory := rfl
@[simp] theorem State.setResultRing_messages : (s.setResultRing n q).messages = s.messages := rfl
@[simp] theorem State.setResultRing_draws : (s.setResultRing n q).draws = s.draws := rfl
@[simp] theorem State.setResultRing_epoch : (s.setResultRing n q).epoch = s.epoch := rfl
@[simp] theorem State.setResultRing_pending : (s.setResultRing n q).pending = s.pending := rfl
end setResultRing

section issue
variable (s : State) (kind : TransferKind) (a : Address) (p : Payload)
@[simp] theorem State.issue_controller : (s.issue kind a p).controller = s.controller := rfl
@[simp] theorem State.issue_quiesceBit : (s.issue kind a p).quiesceBit = s.quiesceBit := rfl
@[simp] theorem State.issue_setupLo : (s.issue kind a p).setupLo = s.setupLo := rfl
@[simp] theorem State.issue_setupHi : (s.issue kind a p).setupHi = s.setupHi := rfl
@[simp] theorem State.issue_resetCause : (s.issue kind a p).resetCause = s.resetCause := rfl
@[simp] theorem State.issue_haltCause : (s.issue kind a p).haltCause = s.haltCause := rfl
@[simp] theorem State.issue_rejection : (s.issue kind a p).rejection = s.rejection := rfl
@[simp] theorem State.issue_cause : (s.issue kind a p).cause = s.cause := rfl
@[simp] theorem State.issue_mask : (s.issue kind a p).mask = s.mask := rfl
@[simp] theorem State.issue_heldSetup : (s.issue kind a p).heldSetup = s.heldSetup := rfl
@[simp] theorem State.issue_writeBackAddress : (s.issue kind a p).writeBackAddress = s.writeBackAddress := rfl
@[simp] theorem State.issue_workRings : (s.issue kind a p).workRings = s.workRings := rfl
@[simp] theorem State.issue_slots : (s.issue kind a p).slots = s.slots := rfl
@[simp] theorem State.issue_pointer : (s.issue kind a p).pointer = s.pointer := rfl
@[simp] theorem State.issue_runCounter : (s.issue kind a p).runCounter = s.runCounter := rfl
@[simp] theorem State.issue_stations : (s.issue kind a p).stations = s.stations := rfl
@[simp] theorem State.issue_sets : (s.issue kind a p).sets = s.sets := rfl
@[simp] theorem State.issue_resultRings : (s.issue kind a p).resultRings = s.resultRings := rfl
@[simp] theorem State.issue_linkIsUp : (s.issue kind a p).linkIsUp = s.linkIsUp := rfl
@[simp] theorem State.issue_link : (s.issue kind a p).link = s.link := rfl
@[simp] theorem State.issue_transfers : (s.issue kind a p).transfers = s.transfers ++ [⟨kind, a, p, !s.carries, !s.carries, s.epoch⟩] := rfl
@[simp] theorem State.issue_hostMemory : (s.issue kind a p).hostMemory = s.hostMemory := rfl
@[simp] theorem State.issue_messages : (s.issue kind a p).messages = s.messages := rfl
@[simp] theorem State.issue_draws : (s.issue kind a p).draws = s.draws := rfl
@[simp] theorem State.issue_epoch : (s.issue kind a p).epoch = s.epoch := rfl
@[simp] theorem State.issue_pending : (s.issue kind a p).pending = s.pending := rfl
end issue

section dropTransfer
variable (s : State) (kind : TransferKind) (e : Nat)
@[simp] theorem State.dropTransfer_controller : (s.dropTransfer kind e).controller = s.controller := rfl
@[simp] theorem State.dropTransfer_quiesceBit : (s.dropTransfer kind e).quiesceBit = s.quiesceBit := rfl
@[simp] theorem State.dropTransfer_setupLo : (s.dropTransfer kind e).setupLo = s.setupLo := rfl
@[simp] theorem State.dropTransfer_setupHi : (s.dropTransfer kind e).setupHi = s.setupHi := rfl
@[simp] theorem State.dropTransfer_resetCause : (s.dropTransfer kind e).resetCause = s.resetCause := rfl
@[simp] theorem State.dropTransfer_haltCause : (s.dropTransfer kind e).haltCause = s.haltCause := rfl
@[simp] theorem State.dropTransfer_rejection : (s.dropTransfer kind e).rejection = s.rejection := rfl
@[simp] theorem State.dropTransfer_cause : (s.dropTransfer kind e).cause = s.cause := rfl
@[simp] theorem State.dropTransfer_mask : (s.dropTransfer kind e).mask = s.mask := rfl
@[simp] theorem State.dropTransfer_heldSetup : (s.dropTransfer kind e).heldSetup = s.heldSetup := rfl
@[simp] theorem State.dropTransfer_writeBackAddress : (s.dropTransfer kind e).writeBackAddress = s.writeBackAddress := rfl
@[simp] theorem State.dropTransfer_workRings : (s.dropTransfer kind e).workRings = s.workRings := rfl
@[simp] theorem State.dropTransfer_slots : (s.dropTransfer kind e).slots = s.slots := rfl
@[simp] theorem State.dropTransfer_pointer : (s.dropTransfer kind e).pointer = s.pointer := rfl
@[simp] theorem State.dropTransfer_runCounter : (s.dropTransfer kind e).runCounter = s.runCounter := rfl
@[simp] theorem State.dropTransfer_stations : (s.dropTransfer kind e).stations = s.stations := rfl
@[simp] theorem State.dropTransfer_sets : (s.dropTransfer kind e).sets = s.sets := rfl
@[simp] theorem State.dropTransfer_resultRings : (s.dropTransfer kind e).resultRings = s.resultRings := rfl
@[simp] theorem State.dropTransfer_linkIsUp : (s.dropTransfer kind e).linkIsUp = s.linkIsUp := rfl
@[simp] theorem State.dropTransfer_link : (s.dropTransfer kind e).link = s.link := rfl
@[simp] theorem State.dropTransfer_transfers : (s.dropTransfer kind e).transfers = s.transfers.eraseP (Transfer.named kind e) := rfl
@[simp] theorem State.dropTransfer_hostMemory : (s.dropTransfer kind e).hostMemory = s.hostMemory := rfl
@[simp] theorem State.dropTransfer_messages : (s.dropTransfer kind e).messages = s.messages := rfl
@[simp] theorem State.dropTransfer_draws : (s.dropTransfer kind e).draws = s.draws := rfl
@[simp] theorem State.dropTransfer_epoch : (s.dropTransfer kind e).epoch = s.epoch := rfl
@[simp] theorem State.dropTransfer_pending : (s.dropTransfer kind e).pending = s.pending := rfl
end dropTransfer

section signal
variable (s : State) (cause mask : BitVec 8)
@[simp] theorem State.signal_controller : (s.signal cause mask).controller = s.controller := rfl
@[simp] theorem State.signal_quiesceBit : (s.signal cause mask).quiesceBit = s.quiesceBit := rfl
@[simp] theorem State.signal_setupLo : (s.signal cause mask).setupLo = s.setupLo := rfl
@[simp] theorem State.signal_setupHi : (s.signal cause mask).setupHi = s.setupHi := rfl
@[simp] theorem State.signal_resetCause : (s.signal cause mask).resetCause = s.resetCause := rfl
@[simp] theorem State.signal_haltCause : (s.signal cause mask).haltCause = s.haltCause := rfl
@[simp] theorem State.signal_rejection : (s.signal cause mask).rejection = s.rejection := rfl
@[simp] theorem State.signal_cause : (s.signal cause mask).cause = cause := rfl
@[simp] theorem State.signal_mask : (s.signal cause mask).mask = mask := rfl
@[simp] theorem State.signal_heldSetup : (s.signal cause mask).heldSetup = s.heldSetup := rfl
@[simp] theorem State.signal_writeBackAddress : (s.signal cause mask).writeBackAddress = s.writeBackAddress := rfl
@[simp] theorem State.signal_workRings : (s.signal cause mask).workRings = s.workRings := rfl
@[simp] theorem State.signal_slots : (s.signal cause mask).slots = s.slots := rfl
@[simp] theorem State.signal_pointer : (s.signal cause mask).pointer = s.pointer := rfl
@[simp] theorem State.signal_runCounter : (s.signal cause mask).runCounter = s.runCounter := rfl
@[simp] theorem State.signal_stations : (s.signal cause mask).stations = s.stations := rfl
@[simp] theorem State.signal_sets : (s.signal cause mask).sets = s.sets := rfl
@[simp] theorem State.signal_resultRings : (s.signal cause mask).resultRings = s.resultRings := rfl
@[simp] theorem State.signal_linkIsUp : (s.signal cause mask).linkIsUp = s.linkIsUp := rfl
@[simp] theorem State.signal_link : (s.signal cause mask).link = s.link := rfl
@[simp] theorem State.signal_transfers : (s.signal cause mask).transfers = s.transfers := rfl
@[simp] theorem State.signal_hostMemory : (s.signal cause mask).hostMemory = s.hostMemory := rfl
@[simp] theorem State.signal_draws : (s.signal cause mask).draws = s.draws := rfl
@[simp] theorem State.signal_epoch : (s.signal cause mask).epoch = s.epoch := rfl
@[simp] theorem State.signal_pending : (s.signal cause mask).pending = s.pending := rfl
end signal

end Sys2Proof.Machine
end

