-- ==== Sys2Proof/Laws/Ops.lean ====
section
/-! SUPPORT. One lemma for each shared operation: everything it can do. Proofs cite these and need not unfold the
operations. -/
namespace Sys2Proof.Machine

/-! ## Banks -/

theorem get_set {α : Type} {n : Nat} (v : Vector α n) (i j : Fin n) (x : α) :
    (v.set i x)[j] = if i = j then x else v[j] := by
  simp only [Fin.getElem_fin, Vector.getElem_set, Fin.ext_iff]

theorem get_mapBank {α β : Type} {n : Nat} (f : α → β) (v : Vector α n) (i : Fin n) : (mapBank f v)[i] = f v[i] := by
  simp [mapBank]

theorem set_get_self {α : Type} {n : Nat} (v : Vector α n) (i : Fin n) : v.set i v[i] = v := by
  simp

theorem bank_ext {α : Type} {n : Nat} {v w : Vector α n} (h : ∀ i : Fin n, v[i] = w[i]) : v = w :=
  Vector.ext fun i hi => h ⟨i, hi⟩

theorem mapBank_id {α : Type} {n : Nat} {f : α → α} {v : Vector α n} (h : ∀ i : Fin n, f v[i] = v[i]) :
    mapBank f v = v :=
  bank_ext fun i => (get_mapBank f v i).trans (h i)

theorem toList_all {α : Type} {n : Nat} (v : Vector α n) (p : α → Bool) :
    v.toList.all p = true ↔ ∀ i : Fin n, p v[i] = true := by
  rw [List.all_eq_true]
  constructor
  · intro h i
    exact h _ (by simp)
  · intro h x hx
    obtain ⟨i, hi, rfl⟩ := List.getElem_of_mem hx
    simpa using h ⟨i, by simpa using hi⟩

theorem toList_any {α : Type} {n : Nat} (v : Vector α n) (p : α → Bool) :
    v.toList.any p = true ↔ ∃ i : Fin n, p v[i] = true := by
  rw [List.any_eq_true]
  constructor
  · rintro ⟨x, hx, hp⟩
    obtain ⟨i, hi, rfl⟩ := List.getElem_of_mem hx
    exact ⟨⟨i, by simpa using hi⟩, by simpa using hp⟩
  · rintro ⟨i, hp⟩
    exact ⟨_, by simp, hp⟩

theorem State.tableEmpty_iff (s : State) : s.tableEmpty = true ↔ ∀ k : SlotId, s.slots[k] = none := by
  simp only [State.tableEmpty, toList_all, Option.isNone_iff_eq_none]

theorem State.earlierAll_iff (s : State) (t : Task) (p : Task → Bool) :
    s.earlierAll t p = true ↔ ∀ j : SlotId, ∀ u ∈ s.slots[j], u.before t = true → p u = true := by
  rw [State.earlierAll, toList_all]
  refine forall_congr' fun j => ?_
  cases s.slots[j] with
  | none => simp
  | some u => cases hu : u.before t <;> simp [hu]

/-! ## Transfers -/

/-- Part of a write changes host memory at the bytes of the write, and draws once; a read changes nothing. -/
theorem State.writePart_spec (s : State) (x : Transfer) :
    ∃ m d, s.writePart x = { s with hostMemory := m, draws := d } ∧ Torn [x] s.hostMemory m := by
  unfold State.writePart
  split
  · exact ⟨s.hostMemory, s.draws, rfl, fun a => .inl rfl⟩
  · next data hd =>
    split
    · exact ⟨s.hostMemory, s.draws, rfl, fun a => .inl rfl⟩
    · next hf =>
      refine ⟨_, _, rfl, fun a => ?_⟩
      rcases Memory.read_writePart s.draws s.hostMemory x.address 0 data a with h | ⟨i, hi, ha, hr⟩
      · exact .inl h
      · exact .inr ⟨x, by simp, by simpa using hf, data, i, hd, ha, hi, hr⟩

/-- None of a write that the link port refused reaches host memory (R176, R195). -/
theorem State.writePart_refused (s : State) {x : Transfer} (h : x.refused = true) : s.writePart x = s := by
  unfold State.writePart
  split
  · rfl
  · rw [if_pos h]

theorem Torn.refl (xs : List Transfer) (m : Memory) : Torn xs m m := fun _ => .inl rfl

theorem Torn.mono {xs ys : List Transfer} {m n : Memory} (h : Torn xs m n) (sub : xs ⊆ ys) : Torn ys m n := fun a =>
  (h a).imp id fun ⟨x, hx, r⟩ => ⟨x, sub hx, r⟩

theorem Torn.trans {xs ys : List Transfer} {m n o : Memory} (h : Torn xs m n) (h' : Torn ys n o) :
    Torn (xs ++ ys) m o := fun a => by
  rcases h' a with e | ⟨x, hx, r⟩
  · rw [e]
    rcases h a with e | ⟨x, hx, r⟩
    · exact .inl e
    · exact .inr ⟨x, List.mem_append_left _ hx, r⟩
  · exact .inr ⟨x, List.mem_append_right _ hx, r⟩

theorem State.foldl_writePart_spec (xs : List Transfer) (s : State) :
    ∃ m d, xs.foldl State.writePart s = { s with hostMemory := m, draws := d } ∧ Torn xs s.hostMemory m := by
  induction xs generalizing s with
  | nil => exact ⟨s.hostMemory, s.draws, rfl, Torn.refl _ _⟩
  | cons x rest ih =>
    obtain ⟨m, d, e, h⟩ := s.writePart_spec x
    obtain ⟨m', d', e', h'⟩ := ih (s.writePart x)
    refine ⟨m', d', ?_, ?_⟩
    · rw [List.foldl_cons, e', e]
    · have := h.trans (by rw [e] at h'; exact h')
      exact this

/-- Abandoning keeps the transfers that satisfy `keep`, leaves the writes among the others torn, and begins the next
epoch. -/
theorem State.abandon_spec (s : State) (keep : Transfer → Bool) :
    ∃ m d, s.abandon keep = { s with
        transfers := s.transfers.filter keep, hostMemory := m, draws := d, epoch := s.epoch + 1 } ∧
      Torn (s.transfers.filter fun x => !keep x) s.hostMemory m := by
  obtain ⟨m, d, e, h⟩ := State.foldl_writePart_spec (s.transfers.filter fun x => !keep x)
    { s with transfers := s.transfers.filter keep, epoch := s.epoch + 1 }
  exact ⟨m, d, e, h⟩

/-- A transfer ends done exactly where one of its kind and epoch is in flight and can still be carried. -/
theorem State.endDone_eq_some {s t : State} {kind : TransferKind} {e : Nat} (h : s.endDone kind e = some t) :
    ∃ x, oldest s kind e = some x ∧ x.failing = false ∧ ∃ m,
      t = { s with transfers := without s kind e, hostMemory := m } ∧
      ((∃ data, x.payload = .write data ∧ m = Memory.writeBytes s.hostMemory x.address data) ∨
        (∃ n, x.payload = .read n) ∧ m = s.hostMemory) := by
  unfold State.endDone State.inFlight at h
  split at h
  · cases h
  · next x hx =>
    split at h
    · cases h
    · next hf =>
      refine ⟨x, hx, by simpa using hf, ?_⟩
      cases h
      unfold State.writeWhole
      split
      · next n hp => exact ⟨s.hostMemory, rfl, .inr ⟨⟨n, hp⟩, rfl⟩⟩
      · next data hp => exact ⟨_, rfl, .inl ⟨data, hp, rfl⟩⟩

/-- A transfer ends failed exactly where one of its kind and epoch is in flight; a write among them leaves memory torn. -/
theorem State.endFailed_eq_some {s t : State} {kind : TransferKind} {e : Nat} (h : s.endFailed kind e = some t) :
    ∃ x, oldest s kind e = some x ∧ ∃ m d,
      t = { s with transfers := without s kind e, hostMemory := m, draws := d } ∧
      Torn [x] s.hostMemory m := by
  unfold State.endFailed State.inFlight at h
  split at h
  · cases h
  · next x hx =>
    obtain ⟨m, d, e, ht⟩ := (s.dropTransfer kind e).writePart_spec x
    cases h
    exact ⟨x, hx, m, d, e, ht⟩

theorem State.endDone_of_find {s : State} {kind : TransferKind} {e : Nat} {x : Transfer}
    (h : oldest s kind e = some x) (hf : x.failing = false) :
    s.endDone kind e = some ((s.dropTransfer kind e).writeWhole x) := by
  show (match oldest s kind e with | none => none | some t => if t.failing then none else some _) = _
  simp [h, hf]

theorem State.endFailed_of_find {s : State} {kind : TransferKind} {e : Nat} {x : Transfer}
    (h : oldest s kind e = some x) :
    s.endFailed kind e = some ((s.dropTransfer kind e).writePart x) := by
  show (match oldest s kind e with | none => none | some t => some _) = _
  simp [h]

theorem State.endDone_eq_none {s : State} {kind : TransferKind} {e : Nat}
    (h : ∀ x ∈ s.transfers, x.named kind e = true → x.failing = true) : s.endDone kind e = none := by
  unfold State.endDone State.inFlight
  split
  · rfl
  · next x hx =>
    have hk : x.named kind e = true := List.find?_some hx
    rw [if_pos (h x (List.mem_of_find?_eq_some hx) hk)]

theorem State.endFailed_eq_none {s : State} {kind : TransferKind} {e : Nat}
    (h : ∀ x ∈ s.transfers, x.named kind e = false) : s.endFailed kind e = none := by
  unfold State.endFailed State.inFlight
  rw [List.find?_eq_none.mpr (fun x hx => by rw [h x hx]; exact Bool.false_ne_true)]

/-! ## Causes and messages -/

theorem State.signal_spec (s : State) (cause mask : BitVec 8) :
    s.signal cause mask = { s with cause, mask, messages := messagesAfter s cause mask } := by
  unfold State.signal messagesAfter State.signalled State.messageEnabled
  simp

theorem State.setCause_spec (s : State) (k : Cause) :
    s.setCause k = { s with
      cause := s.cause ||| k.bit, messages := messagesAfter s (s.cause ||| k.bit) s.mask } := by
  rw [State.setCause, State.signal_spec]

theorem Cause.bit_result (n : ResultRingId) : (Cause.result n).bit = resultBit n := by
  revert n; decide

/-- Two settings in one event send what one setting of both sends. -/
theorem messagesAfter_twice (s t : State) (a b : BitVec 8)
    (ht : t = { s with cause := s.cause ||| a, messages := messagesAfter s (s.cause ||| a) s.mask }) :
    messagesAfter t (s.cause ||| a ||| b) s.mask = messagesAfter s (s.cause ||| a ||| b) s.mask := by
  subst ht
  by_cases h : (s.cause ||| a) &&& s.mask = 0
  · have h1 : s.cause &&& s.mask = 0 := by
      rw [BitVec.and_or_distrib_right] at h
      exact (BitVec.or_eq_zero_iff.mp h).1
    simp only [messagesAfter, h, h1, ne_eq, not_true_eq_false, false_and, and_false, if_false, true_and]
  · have h2 : (s.cause ||| a ||| b) &&& s.mask ≠ 0 := by
      intro e
      rw [BitVec.and_or_distrib_right] at e
      exact h (BitVec.or_eq_zero_iff.mp e).1
    simp only [messagesAfter, h, h2, ne_eq, not_false_eq_true, false_and, true_and, if_false]

/-! ## Halt -/

/-- A halt request in a state that acts on it (R167). -/
theorem State.halt_spec {s : State} (h : Halts s) (why : HaltCause) :
    ∃ m d, s.halt why = haltedAs s why m d ∧ Torn (abandonedByHalt s) s.hostMemory m := by
  obtain ⟨m, d, e, ht⟩ := s.abandon_spec Transfer.isWriteBack
  refine ⟨m, d, ?_, ht⟩
  have e1 : s.halt why = ({ s.abandon Transfer.isWriteBack with
        controller := .halted
        haltCause := why
        heldSetup := none
        slots := Vector.replicate 8 none
        workRings := mapBank (Option.map fun w => { w with inFlight := 0 }) s.workRings
        resultRings := mapBank (Option.map fun q => { q with reserved := 0 }) s.resultRings } : State).setCause
          .halted := by
    unfold State.halt
    rcases h with h | h | h | h <;> rw [h]
  rw [e1, e, State.setCause_spec]
  rfl

theorem State.halt_of_not {s : State} (h : ¬Halts s) (why : HaltCause) : s.halt why = s := by
  unfold State.halt
  split
  · rfl
  · rfl
  all_goals exact absurd (by simp [Halts, *]) h

theorem State.teardown_spec (s : State) :
    ∃ m d, s.teardown = tornDown s m d ∧ Torn s.transfers s.hostMemory m := by
  obtain ⟨m, d, e, ht⟩ := s.abandon_spec fun _ => false
  refine ⟨m, d, ?_, by simpa using ht⟩
  rw [State.teardown, e]
  simp [tornDown]

/-! ## Tasks -/

theorem State.ready_of_runs {s : State} {k : SlotId} {t : Task} {r : Block64} {kind : Nat} (h : Runs s k t r kind) :
    s.ready k = some (t, some r) := by
  have hturn := (s.earlierAll_iff t Task.executed).mpr h.turn
  unfold State.ready
  simp [h.held, h.queued, hturn]

theorem State.runs_of_ready {s : State} {k : SlotId} {t : Task} {r : Block64} (h : s.ready k = some (t, some r)) :
    Runs s k t r (recordKind r) := by
  unfold State.ready at h
  split at h
  · cases h
  · next u hu =>
    split at h
    · next o ho =>
      split at h
      · next he =>
        obtain ⟨rfl, rfl⟩ := Prod.mk.inj (Option.some.inj h)
        exact ⟨hu, ho, (s.earlierAll_iff _ _).mp he, rfl⟩
      · cases h
    all_goals cases h

/-- The task whose turn it is acts. -/
theorem State.executing_of_runs {s : State} {k : SlotId} {t : Task} {r : Block64} {kind : Nat} (h : Runs s k t r kind)
    (act : Task → Block64 → State) : s.executing k kind act = act t r := by
  simp [State.executing, State.ready_of_runs h, h.kind]

/-- Where no task of the kind has its turn, nothing happens. -/
theorem State.executing_of_not {s : State} {k : SlotId} {kind : Nat} (h : ∀ t r, ¬Runs s k t r kind)
    (act : Task → Block64 → State) : s.executing k kind act = s := by
  unfold State.executing
  split
  · next t r hr =>
    rw [if_neg]
    intro hk
    exact h t r (hk ▸ State.runs_of_ready hr)
  · rfl

/-- An execution either changes nothing or is the act of the task whose turn it is. -/
theorem State.executing_cases (s : State) (k : SlotId) (kind : Nat) (act : Task → Block64 → State) :
    s.executing k kind act = s ∨ ∃ t r, Runs s k t r kind ∧ s.executing k kind act = act t r := by
  by_cases h : ∃ t r, Runs s k t r kind
  · obtain ⟨t, r, h⟩ := h
    exact .inr ⟨t, r, h, State.executing_of_runs h act⟩
  · exact .inl (State.executing_of_not (fun t r hr => h ⟨t, r, hr⟩) act)

theorem State.answer_spec (s : State) (k : SlotId) (t : Task) (r : Block64) (status : Status) (body : Body) :
    s.answer k t r status body = { s with slots := s.slots.set k (some (answered t r status body)) } := rfl

/-! ## Result rings -/

theorem ResultRing.room_iff (q : ResultRing) :
    1 ≤ q.unreservedFree ↔ (q.placed - q.released).toNat + q.reserved < q.size := by
  unfold ResultRing.unreservedFree ResultRing.occupied
  omega

/-- A ring's announcement: where due, its count made 0 and its cause set; nothing else. -/
theorem State.announce_spec {s : State} {n : ResultRingId} {q : ResultRing} (h : s.resultRings[n] = some q)
    (due : ResultRing → Bool) :
    s.announce n due = if due q then { s with
      resultRings := s.resultRings.set n (some { q with unsignalled := 0 })
      cause := s.cause ||| resultBit n
      messages := messagesAfter s (s.cause ||| resultBit n) s.mask } else s := by
  unfold State.announce
  rw [h]
  dsimp only
  split
  · rw [State.setCause_spec, Cause.bit_result]; rfl
  · rfl

theorem State.announce_absent {s : State} {n : ResultRingId} (h : s.resultRings[n] = none) (due : ResultRing → Bool) :
    s.announce n due = s := by
  unfold State.announce
  rw [h]

/-- A record write that ended done: the produced index, the count with its threshold, and the write-back (R146, R157). -/
theorem State.recordProduced_spec {s : State} {n : ResultRingId} {q : ResultRing} (h : s.resultRings[n] = some q) :
    s.recordProduced n =
      let produced := (s.transfers.findSome? (Transfer.resultIndex n)).getD q.placed
      let signals := decide (q.threshold ≤ q.unsignalled + 1)
      { s with
        resultRings := s.resultRings.set n (some
          { q with produced := produced, unsignalled := if signals then 0 else q.unsignalled + 1 })
        cause := if signals then s.cause ||| resultBit n else s.cause
        messages := if signals then messagesAfter s (s.cause ||| resultBit n) s.mask else s.messages
        transfers := s.transfers ++ [producedWriteBack s n produced] } := by
  have h' : ∀ x, (s.setResultRing n x).resultRings[n] = x := fun x => by
    simp only [State.setResultRing, get_set, if_true]
  unfold State.recordProduced
  rw [h]
  dsimp only
  rw [State.announce_spec (h' _)]
  by_cases hs : q.threshold ≤ q.unsignalled + 1
  · simp [hs, State.writeBack, State.issue, State.carries, producedWriteBack, requested, placeOffset, messagesAfter,
      State.producedNow, State.setResultRing]
    rfl
  · simp [hs, State.writeBack, State.issue, State.carries, producedWriteBack, requested, placeOffset,
      State.producedNow, State.setResultRing]

/-! ## Notices -/

theorem State.emits_iff (s : State) : s.emits = true ↔ s.controller = .running ∨ s.controller = .quiescing := by
  unfold State.emits
  cases s.controller <;> simp

theorem Context.candidate_opened (c : Station) : (Context.opened c).candidate = true ↔ Waiting c := by
  simp [Context.candidate, Waiting]

/-- The one thing an emission does (R155). -/
theorem State.emitNotice_of {s : State} {id : StationId} {c : Station} {q : ResultRing} (hc : s.stations[id] = .opened c)
    (hq : s.resultRings[c.noticeRing] = some q) (hw : Waiting c)
    (hr : (q.placed - q.released).toNat + q.reserved < q.size)
    (he : s.controller = .running ∨ s.controller = .quiescing) :
    s.emitNotice id = { s with
      stations := s.stations.set id (.opened { c with pendingSet := 0, noticeArmed := false, noticeInFlight := true })
      resultRings := s.resultRings.set c.noticeRing (some { q with placed := q.placed + 1 })
      transfers := s.transfers ++ [requested s (.notice id c.noticeRing q.placed)
        (q.base + BitVec.ofNat 64 (32 * (q.placed.toNat % q.size))) (.write (noticeBytes id c))] } := by
  have h1 := (State.emits_iff s).mpr he
  have h2 := (Context.candidate_opened c).mpr hw
  have h3 := (ResultRing.room_iff q).mpr hr
  unfold State.emitNotice
  simp [hc, hq, h1, h2, h3, State.issue, State.carries, requested, State.setStation, State.setResultRing,
    ResultRing.entryAddress]

/-- Where a condition of an emission fails, nothing happens (R154). -/
theorem State.emitNotice_of_not {s : State} {id : StationId}
    (h : ∀ c, s.stations[id] = .opened c → ¬Waiting c ∨ (s.controller ≠ .running ∧ s.controller ≠ .quiescing) ∨
      ∀ q, s.resultRings[c.noticeRing] = some q → q.size ≤ (q.placed - q.released).toNat + q.reserved) :
    s.emitNotice id = s := by
  unfold State.emitNotice
  split
  · rfl
  · rfl
  · next c hc =>
    split
    · rfl
    · next q hq =>
      rw [if_neg]
      intro hcond
      simp only [Bool.and_eq_true, decide_eq_true_eq, State.emits_iff, Context.candidate_opened,
        ResultRing.room_iff] at hcond
      obtain ⟨⟨he, hw⟩, hr⟩ := hcond
      rcases h c hc with h | h | h
      · exact h hw
      · rcases he with he | he
        · exact h.1 he
        · exact h.2 he
      · exact absurd (h q hq) (by omega)

/-- An emission either changes nothing, some condition of it failing, or is the event of R155. -/
theorem State.emitNotice_cases (s : State) (id : StationId) :
    (s.emitNotice id = s ∧
      ∀ c q, s.stations[id] = .opened c → s.resultRings[c.noticeRing] = some q → Waiting c →
        s.controller = .running ∨ s.controller = .quiescing → q.size ≤ (q.placed - q.released).toNat + q.reserved) ∨
    ∃ c q, s.stations[id] = .opened c ∧ s.resultRings[c.noticeRing] = some q ∧ Waiting c ∧
      (q.placed - q.released).toNat + q.reserved < q.size ∧
      (s.controller = .running ∨ s.controller = .quiescing) ∧
      s.emitNotice id = { s with
        stations := s.stations.set id (.opened { c with pendingSet := 0, noticeArmed := false, noticeInFlight := true })
        resultRings := s.resultRings.set c.noticeRing (some { q with placed := q.placed + 1 })
        transfers := s.transfers ++ [requested s (.notice id c.noticeRing q.placed)
          (q.base + BitVec.ofNat 64 (32 * (q.placed.toNat % q.size))) (.write (noticeBytes id c))] } := by
  by_cases h : ∃ c q, s.stations[id] = .opened c ∧ s.resultRings[c.noticeRing] = some q ∧ Waiting c ∧
      (q.placed - q.released).toNat + q.reserved < q.size ∧ (s.controller = .running ∨ s.controller = .quiescing)
  · obtain ⟨c, q, hc, hq, hw, hr, he⟩ := h
    exact .inr ⟨c, q, hc, hq, hw, hr, he, State.emitNotice_of hc hq hw hr he⟩
  · refine .inl ⟨State.emitNotice_of_not fun c hc => ?_, fun c q hc hq hw he => ?_⟩
    · by_cases hw : Waiting c
      · by_cases he : s.controller = .running ∨ s.controller = .quiescing
        · refine .inr (.inr fun q hq => ?_)
          by_contra hr
          exact h ⟨c, q, hc, hq, hw, by omega, he⟩
        · exact .inr (.inl (not_or.mp he))
      · exact .inl hw
    · by_contra hr
      exact h ⟨c, q, hc, hq, hw, by omega, he⟩

/-! ## Drains and freed slots -/

theorem get_freeSets (ids : List SetId) (sets : Vector StagingSet 8) (i : SetId) :
    (freeSets ids sets)[i] = if i ∈ ids then .free else sets[i] := by
  induction ids generalizing sets with
  | nil => simp [freeSets]
  | cons j rest ih =>
    have := ih (sets.set j .free)
    rw [freeSets, List.foldl_cons]
    rw [freeSets] at this
    rw [this, get_set]
    by_cases hi : i ∈ rest
    · simp [hi]
    · by_cases hj : j = i
      · simp [hi, hj]
      · simp [hi, hj, Ne.symm hj]

/-- A close drain ends, or nothing happens (R9, R10). -/
theorem State.endCloseDrain_cases (s : State) (k : SlotId) :
    s.endCloseDrain k = s ∨
    ∃ t r id c, s.slots[k] = some t ∧ t.phase = .drainWait r (.close id []) ∧ s.stations[id] = .closing c ∧
      c.noticeInFlight = false ∧
      s.endCloseDrain k = { s with
        sets := freeSets c.armed s.sets
        stations := s.stations.set id .free
        slots := s.slots.set k (some (answered t r .ok
          (.closeStation c.armed.length c.measures c.decisions c.skipped))) } := by
  unfold State.endCloseDrain
  split
  · exact .inl rfl
  · next t ht =>
    split
    · next r id hp =>
      split
      · next c hc =>
        split
        · exact .inl rfl
        · next hn => exact .inr ⟨t, r, id, c, ht, hp, hc, by simpa using hn, rfl⟩
      · exact .inl rfl
      · exact .inl rfl
    · exact .inl rfl

/-- A delete drain ends, or nothing happens (R138). -/
theorem State.endDeleteDrain_cases (s : State) (k : SlotId) :
    s.endDeleteDrain k = s ∨
    ∃ t r n w, s.slots[k] = some t ∧ t.phase = .drainWait r (.delete n) ∧ s.workRings[n] = some w ∧ w.inFlight = 0 ∧
      s.endDeleteDrain k = { s with
        sets := mapBank (fun x => if x.openOwnedBy n then .free else x) s.sets
        workRings := s.workRings.set n none
        slots := s.slots.set k (some (answered t r .ok
          (.deleteWorkRing n.val (s.sets.toList.filter (StagingSet.openOwnedBy n)).length
            (w.posted - w.taken).toNat))) } := by
  unfold State.endDeleteDrain
  split
  · exact .inl rfl
  · next t ht =>
    split
    · next r n hp =>
      split
      · exact .inl rfl
      · next w hw =>
        split
        · next h0 => exact .inr ⟨t, r, n, w, ht, hp, hw, h0, rfl⟩
        · exact .inl rfl
    · exact .inl rfl

theorem Task.draining_of_phase {t : Task} {r : Block64} {d : Drain} (h : t.phase = .drainWait r d) :
    t.draining = true := by
  simp [Task.draining, h]

/-- With no task in DRAIN_WAIT there is no drain to end. -/
theorem State.settleDrains_of_none {s : State} (h : ∀ j : SlotId, ∀ u ∈ s.slots[j], u.draining = false) :
    s.settleDrains = s := by
  have step : ∀ k : SlotId, (s.endCloseDrain k).endDeleteDrain k = s := by
    intro k
    have h1 : s.endCloseDrain k = s := by
      rcases s.endCloseDrain_cases k with h' | ⟨t, r, id, c, ht, hp, -⟩
      · exact h'
      · exact absurd (h k t (by rw [ht]; rfl)) (by simp [Task.draining_of_phase hp])
    rw [h1]
    rcases s.endDeleteDrain_cases k with h' | ⟨t, r, n, w, ht, hp, -⟩
    · exact h'
    · exact absurd (h k t (by rw [ht]; rfl)) (by simp [Task.draining_of_phase hp])
  unfold State.settleDrains
  induction (List.finRange 8) with
  | nil => rfl
  | cons k rest ih => rw [List.foldl_cons, step k, ih]

theorem Task.forgetSlot_of_not_draining {t : Task} (k : SlotId) (h : t.draining = false) : t.forgetSlot k = t := by
  unfold Task.forgetSlot Task.draining at *
  split <;> simp_all

/-- A slot becomes FREE where no task is in DRAIN_WAIT. -/
theorem State.freeSlot_spec {s : State} {k : SlotId} {t : Task} {w : WorkRing} (ht : s.slots[k] = some t)
    (hw : s.workRings[t.ring] = some w) (h : ∀ j : SlotId, ∀ u ∈ s.slots[j], u.draining = false) :
    s.freeSlot k = { s with
      slots := s.slots.set k none
      workRings := s.workRings.set t.ring (some { w with inFlight := w.inFlight - 1 }) } := by
  have e : mapBank (Option.map (Task.forgetSlot k)) (s.slots.set k none) = s.slots.set k none := by
    refine mapBank_id fun j => ?_
    rw [get_set]
    split
    · rfl
    · cases hu : s.slots[j] with
      | none => rfl
      | some u => simp [Task.forgetSlot_of_not_draining k (h j u (by rw [hu]; rfl))]
  unfold State.freeSlot
  simp only [ht, e, hw]
  rfl

/-- The eligibility test of the arbiter is R122's list of conditions. -/
theorem canTake_iff (s : State) (n : WorkRingId) : CanTake s n ↔ s.eligible n = true := by
  constructor
  · rintro ⟨w, q, h⟩
    have hs : s.slots.toList.any (·.isNone) = true := by
      rw [toList_any]
      obtain ⟨k, hk⟩ := h.slot
      exact ⟨k, by simp [hk]⟩
    have hr := h.room
    unfold State.eligible
    simp only [h.present, h.bound, Bool.and_eq_true, decide_eq_true_eq]
    refine ⟨⟨⟨⟨⟨by simp [h.active], h.waiting⟩, h.belowLimit⟩, hs⟩, ?_⟩, h.running⟩
    simp only [ResultRing.unreservedFree, ResultRing.occupied]
    omega
  · intro h
    unfold State.eligible at h
    split at h
    · cases h
    · next w hw =>
      split at h
      · simp at h
      · next q hq =>
        simp only [Bool.and_eq_true, beq_iff_eq, decide_eq_true_eq, toList_any] at h
        obtain ⟨⟨⟨⟨⟨h1, h2⟩, h3⟩, k, h4⟩, h5⟩, h6⟩ := h
        refine ⟨w, q, hw, h1, h2, h3, ⟨k, by simpa using h4⟩, hq, ?_, h6⟩
        simp only [ResultRing.unreservedFree, ResultRing.occupied] at h5
        omega

end Sys2Proof.Machine
end

