-- ==== Sys2Proof/Laws/Offers.lean ====
section
/-! SUPPORT. The slot-offer rule (R148, R156): the offer of one ring's free slots, and of all rings' at the return to RUNNING,
leave the state that `afterOffers` names. -/
namespace Sys2Proof.Machine

theorem get_ofFn {α : Type} {n : Nat} (f : Fin n → α) (i : Fin n) : (Vector.ofFn f)[i] = f i := by simp

theorem waitsOn_eq_some {s : State} {n : ResultRingId} {id : StationId} {x : StationId × Station} :
    waitsOn s n id = some x ↔ x.1 = id ∧ s.stations[id] = .opened x.2 ∧ x.2.noticeRing = n ∧ Waiting x.2 := by
  obtain ⟨j, c⟩ := x
  unfold waitsOn
  cases h : s.stations[id] with
  | free => simp
  | closing d => simp
  | opened d =>
    simp only [Option.ite_none_right_eq_some, Option.some.injEq, Prod.mk.injEq, Context.opened.injEq]
    constructor
    · rintro ⟨hw, rfl, rfl⟩
      exact ⟨rfl, rfl, hw⟩
    · rintro ⟨rfl, rfl, hw⟩
      exact ⟨hw, rfl, rfl⟩

/-- The three fields an offer writes. -/
def State.offered (s : State) (stations : Vector Context 32) (rings : Vector (Option ResultRing) 4)
    (transfers : List Transfer) : State :=
  { s with stations := stations, resultRings := rings, transfers := transfers }

theorem State.offered_congr {s : State} {a a' : Vector Context 32} {b b' : Vector (Option ResultRing) 4}
    {c c' : List Transfer} (h1 : a = a') (h2 : b = b') (h3 : c = c') : s.offered a b c = s.offered a' b' c' := by
  rw [h1, h2, h3]

/-- The state once a station has been served on a ring. -/
def State.served (s : State) (id : StationId) (c : Station) (q : ResultRing) : State :=
  s.offered (s.stations.set id (.opened { c with pendingSet := 0, noticeArmed := false, noticeInFlight := true }))
    (s.resultRings.set c.noticeRing (some { q with placed := q.placed + 1 }))
    (s.transfers ++ [noticeWrite s c.noticeRing q ((id, c), 0)])

/-- The state once the stations listed have been served on a ring, in their order. -/
def State.servedAll (s : State) (n : ResultRingId) (q : ResultRing) (served : List (StationId × Station)) : State :=
  s.offered (Vector.ofFn fun id => captured served id s.stations[id])
    (s.resultRings.set n (some { q with placed := q.placed + BitVec.ofNat 16 served.length }))
    (s.transfers ++ served.zipIdx.map (noticeWrite s n q))

theorem captured_nil (id : StationId) (c : Context) : captured [] id c = c := by
  cases c <;> simp [captured]

theorem captured_of_not_mem {served : List (StationId × Station)} {id : StationId} (h : ∀ x ∈ served, x.1 ≠ id)
    (c : Context) : captured served id c = c := by
  cases c with
  | free => rfl
  | closing d => rfl
  | opened d =>
    exact if_neg fun hm => h _ hm rfl

theorem captured_cons_of_ne {x : StationId × Station} {served : List (StationId × Station)} {id : StationId}
    (h : x.1 ≠ id) (c : Context) : captured (x :: served) id c = captured served id c := by
  cases c with
  | free => rfl
  | closing d => rfl
  | opened d =>
    have : (id, d) ∈ x :: served ↔ (id, d) ∈ served := by
      rw [List.mem_cons, or_iff_right]
      rintro rfl
      exact h rfl
    simp only [captured, this]

theorem State.servedAll_nil {s : State} {n : ResultRingId} {q : ResultRing} (hq : s.resultRings[n] = some q) :
    s.servedAll n q [] = s := by
  refine (State.offered_congr (bank_ext fun i => ?_) (bank_ext fun i => ?_) ?_ : _ = s.offered _ _ _)
  · rw [get_ofFn, captured_nil]
  · rw [get_set]
    split
    · next h => subst h; simp [hq]
    · rfl
  · simp

theorem add_one_ofNat (a : RingIndex) (j : Nat) : a + 1 + BitVec.ofNat 16 j = a + BitVec.ofNat 16 (j + 1) := by
  rw [BitVec.add_assoc, Nat.add_comm j 1, BitVec.ofNat_add]
  rfl

/-- Serving one station and then others is serving them all. -/
theorem State.servedAll_cons {s : State} {id : StationId} {c : Station} {q : ResultRing}
    (hc : s.stations[id] = .opened c) (served : List (StationId × Station)) (hs : ∀ x ∈ served, x.1 ≠ id) :
    (s.served id c q).servedAll c.noticeRing { q with placed := q.placed + 1 } served =
      s.servedAll c.noticeRing q ((id, c) :: served) := by
  refine (State.offered_congr (bank_ext fun j => ?_) (bank_ext fun j => ?_) ?_ : _ = s.offered _ _ _)
  · rw [get_ofFn, get_ofFn]
    show captured served j (s.stations.set id _)[j] = _
    rw [get_set]
    by_cases hj : id = j
    · subst hj
      rw [if_pos rfl, captured_of_not_mem hs, hc]
      simp [captured]
    · rw [if_neg hj, captured_cons_of_ne hj]
  · show ((s.resultRings.set c.noticeRing _).set c.noticeRing _)[j] = _
    rw [get_set, get_set, get_set]
    split
    · rw [add_one_ofNat, List.length_cons]
    · rfl
  · show (s.transfers ++ [_]) ++ _ = _
    rw [List.zipIdx_cons', List.map_cons, List.map_map, List.append_assoc, List.singleton_append]
    refine congrArg (fun x => s.transfers ++ _ :: x) (List.map_congr_left fun x _ => ?_)
    show noticeWrite s c.noticeRing _ x = noticeWrite s c.noticeRing q (x.1, x.2 + 1)
    simp only [noticeWrite, add_one_ofNat]

theorem State.emitNotice_served {s : State} {id : StationId} {c : Station} {q : ResultRing}
    (hc : s.stations[id] = .opened c) (hq : s.resultRings[c.noticeRing] = some q) (hw : Waiting c)
    (hr : (q.placed - q.released).toNat + q.reserved < q.size)
    (he : s.controller = .running ∨ s.controller = .quiescing) : s.emitNotice id = s.served id c q := by
  rw [State.emitNotice_of hc hq hw hr he]
  simp [State.served, State.offered, noticeWrite]

/-- The offers of a ring over a list of stations serve those waiting, as many as there are unreserved free slots. -/
theorem State.foldl_offers {n : ResultRingId} (l : List StationId) (hl : l.Nodup) (s : State) (q : ResultRing)
    (hq : s.resultRings[n] = some q) (hz : q.size ≤ 1024) (he : s.controller = .running ∨ s.controller = .quiescing) :
    l.foldl (fun s id => if s.stations[id].noticesOn n then s.emitNotice id else s) s =
      s.servedAll n q
        ((l.filterMap (waitsOn s n)).take (q.size - ((q.placed - q.released).toNat + q.reserved))) := by
  induction l generalizing s q with
  | nil => simp [State.servedAll_nil hq]
  | cons id rest ih =>
    rw [List.foldl_cons]
    obtain ⟨hid, hrest⟩ := List.nodup_cons.mp hl
    cases hx : waitsOn s n id with
    | some x =>
      obtain ⟨i, c⟩ := x
      obtain ⟨rfl, hc, rfl, hw⟩ := waitsOn_eq_some.mp hx
      dsimp only at hc hw hid hx hq
      rw [List.filterMap_cons_some hx, if_pos (by rw [hc]; simp [Context.noticesOn])]
      by_cases hr : (q.placed - q.released).toNat + q.reserved < q.size
      · rw [State.emitNotice_served hc hq hw hr he, ih hrest (s.served i c q) { q with placed := q.placed + 1 }
          ((get_set _ _ _ _).trans (if_pos rfl)) hz he]
        have hsame : rest.filterMap (waitsOn (s.served i c q) c.noticeRing) = rest.filterMap (waitsOn s c.noticeRing) := by
          refine List.filterMap_congr fun j hj => ?_
          have : (s.served i c q).stations[j] = s.stations[j] :=
            (get_set _ _ _ _).trans (if_neg fun h : i = j => hid (h ▸ hj))
          unfold waitsOn
          rw [this]
        have hroom : q.size - ((q.placed - q.released).toNat + q.reserved) =
            q.size - ((q.placed + 1 - q.released).toNat + q.reserved) + 1 := by
          have e : (q.placed + 1 - q.released).toNat = (q.placed - q.released).toNat + 1 := by
            have := q.placed.isLt
            have := q.released.isLt
            have h1 : (1 : RingIndex).toNat = 1 := rfl
            simp only [BitVec.toNat_sub, BitVec.toNat_add, h1] at hr ⊢
            omega
          omega
        rw [hsame, hroom, List.take_succ_cons]
        refine State.servedAll_cons hc _ ?_
        intro x hx
        obtain ⟨j, hj, hjx⟩ := List.mem_filterMap.mp (List.mem_of_mem_take hx)
        rw [(waitsOn_eq_some.mp hjx).1]
        exact fun h => hid (h ▸ hj)
      · have h0 : q.size - ((q.placed - q.released).toNat + q.reserved) = 0 := by omega
        rw [State.emitNotice_of_not, ih hrest s q hq hz he, h0, List.take_zero, List.take_zero]
        intro d hd
        rw [hc] at hd
        cases hd
        refine .inr (.inr fun q' hq' => ?_)
        rw [hq] at hq'
        cases hq'
        omega
    | none =>
      rw [List.filterMap_cons_none hx]
      have : (if (s.stations[id]).noticesOn n then s.emitNotice id else s) = s := by
        split
        · next hon =>
          refine State.emitNotice_of_not fun c hc => .inl fun hw => ?_
          rw [hc] at hon
          have := (waitsOn_eq_some (x := (id, c))).mpr ⟨rfl, hc, by simpa [Context.noticesOn] using hon, hw⟩
          rw [hx] at this
          cases this
        · rfl
      rw [this, ih hrest s q hq hz he]

/-- The stations served on a ring name it as their notice ring and wait. -/
theorem mem_servedOn {s : State} {n : ResultRingId} {x : StationId × Station} (h : x ∈ servedOn s n) :
    s.stations[x.1] = .opened x.2 ∧ x.2.noticeRing = n ∧ Waiting x.2 := by
  unfold servedOn at h
  split at h
  · cases h
  · obtain ⟨j, -, hj⟩ := List.mem_filterMap.mp (List.mem_of_mem_take h)
    obtain ⟨rfl, h⟩ := waitsOn_eq_some.mp hj
    exact h

/-- Where notices are not emitted, an offer does nothing (R156). -/
theorem State.offerSlots_of_not {s : State} (h1 : s.controller ≠ .running) (h2 : s.controller ≠ .quiescing)
    (n : ResultRingId) : s.offerSlots n = s := by
  unfold State.offerSlots
  induction List.finRange 32 with
  | nil => rfl
  | cons id rest ih =>
    rw [List.foldl_cons, State.emitNotice_of_not fun c _ => .inr (.inl ⟨h1, h2⟩), ite_self, ih]

/-- The offer of a ring's free slots (R148). -/
theorem State.offerSlots_spec {s : State} {n : ResultRingId}
    (hz : ∀ q, s.resultRings[n] = some q → q.size ≤ 1024) (he : s.controller = .running ∨ s.controller = .quiescing) :
    s.offerSlots n = afterOffers s [n] := by
  cases hq : s.resultRings[n] with
  | none =>
    have h1 : s.offerSlots n = s := by
      unfold State.offerSlots
      induction List.finRange 32 with
      | nil => rfl
      | cons id rest ih =>
        have : (if (s.stations[id]).noticesOn n then s.emitNotice id else s) = s := by
          split
          · next hon =>
            refine State.emitNotice_of_not fun c hc => .inr (.inr fun q h => ?_)
            rw [hc] at hon
            have hn : c.noticeRing = n := by simpa [Context.noticesOn] using hon
            subst hn
            rw [hq] at h
            cases h
          · rfl
        rw [List.foldl_cons, this, ih]
    have h2 : servedOn s n = [] := by unfold servedOn; rw [hq]
    have h3 : noticesOn s n = [] := by unfold noticesOn; rw [hq]
    rw [h1]
    refine (State.offered_congr (bank_ext fun i => ?_) (bank_ext fun i => ?_) ?_ : s.offered _ _ _ = s.offered _ _ _)
    · rw [get_ofFn]
      simp only [List.flatMap_cons, List.flatMap_nil, List.append_nil, h2, captured_nil]
    · rw [get_ofFn]
      split
      · next h => rw [List.mem_singleton.mp h, hq]; rfl
      · rfl
    · simp only [List.flatMap_cons, List.flatMap_nil, List.append_nil, h3]
  | some q =>
    have h2 : ((List.finRange 32).filterMap (waitsOn s n)).take
        (q.size - ((q.placed - q.released).toNat + q.reserved)) = servedOn s n := by unfold servedOn; rw [hq]
    have h3 : (servedOn s n).zipIdx.map (noticeWrite s n q) = noticesOn s n := by unfold noticesOn; rw [hq]
    unfold State.offerSlots
    rw [State.foldl_offers _ (List.nodup_finRange 32) s q hq (hz q hq) he, h2]
    refine State.offered_congr (bank_ext fun i => ?_) (bank_ext fun i => ?_) ?_
    · simp only [List.flatMap_cons, List.flatMap_nil, List.append_nil]
    · rw [get_set, get_ofFn]
      by_cases hi : n = i
      · subst hi
        simp [hq]
      · rw [if_neg hi, if_neg (by simpa using Ne.symm hi)]
    · simp only [List.flatMap_cons, List.flatMap_nil, List.append_nil, h3]

theorem afterOffers_station (s : State) (rings : List ResultRingId) (id : StationId) :
    (afterOffers s rings).stations[id] = captured (rings.flatMap (servedOn s)) id s.stations[id] := get_ofFn _ _

theorem afterOffers_resultRing (s : State) (rings : List ResultRingId) (n : ResultRingId) :
    (afterOffers s rings).resultRings[n] = if n ∈ rings then
      (s.resultRings[n]).map fun q => { q with placed := q.placed + BitVec.ofNat 16 (servedOn s n).length }
      else s.resultRings[n] := get_ofFn _ _

theorem afterOffers_transfers (s : State) (rings : List ResultRingId) :
    (afterOffers s rings).transfers = s.transfers ++ rings.flatMap (noticesOn s) := rfl

theorem afterOffers_offered (s : State) (rings : List ResultRingId) :
    afterOffers s rings =
      s.offered (afterOffers s rings).stations (afterOffers s rings).resultRings (afterOffers s rings).transfers := rfl

theorem State.offered_twice (s : State) (a a' : Vector Context 32) (b b' : Vector (Option ResultRing) 4)
    (c c' : List Transfer) : (s.offered a b c).offered a' b' c' = s.offered a' b' c' := rfl

theorem waitsOn_afterOffers {rings : List ResultRingId} {s : State} {n : ResultRingId} (hn : n ∉ rings)
    (id : StationId) : waitsOn (afterOffers s rings) n id = waitsOn s n id := by
  unfold waitsOn
  rw [afterOffers_station]
  cases hc : s.stations[id] with
  | free => rfl
  | closing d => rfl
  | opened d =>
    by_cases hm : (id, d) ∈ rings.flatMap (servedOn s)
    · obtain ⟨m, hmr, hm'⟩ := List.mem_flatMap.mp hm
      have hne : d.noticeRing ≠ n := by
        rintro rfl
        exact hn ((mem_servedOn hm').2.1 ▸ hmr)
      simp [captured, hm, hne]
    · simp [captured, hm]

theorem servedOn_afterOffers {rings : List ResultRingId} {s : State} {n : ResultRingId} (hn : n ∉ rings) :
    servedOn (afterOffers s rings) n = servedOn s n ∧ noticesOn (afterOffers s rings) n = noticesOn s n := by
  have hr : (afterOffers s rings).resultRings[n] = s.resultRings[n] := by rw [afterOffers_resultRing, if_neg hn]
  have hs : servedOn (afterOffers s rings) n = servedOn s n := by
    unfold servedOn
    rw [hr]
    have : waitsOn (afterOffers s rings) n = waitsOn s n := funext fun id => waitsOn_afterOffers hn id
    rw [this]
  refine ⟨hs, ?_⟩
  have hw : ∀ q, noticeWrite (afterOffers s rings) n q = noticeWrite s n q := fun q => by
    unfold noticeWrite requested afterOffers
    rfl
  unfold noticesOn
  rw [hr, hs]
  simp only [hw]

/-- Offering one more ring after others. -/
theorem afterOffers_append {rings : List ResultRingId} {s : State} {n : ResultRingId} (hn : n ∉ rings) :
    afterOffers (afterOffers s rings) [n] = afterOffers s (rings ++ [n]) := by
  obtain ⟨h1, h2⟩ := servedOn_afterOffers (s := s) hn
  have e : ∀ a b c, (afterOffers s rings).offered a b c = s.offered a b c := fun a b c => by
    rw [afterOffers_offered s rings, State.offered_twice]
  refine (afterOffers_offered _ _).trans ((e _ _ _).trans (.trans ?_ (afterOffers_offered _ _).symm))
  refine State.offered_congr (bank_ext fun id => ?_) (bank_ext fun i => ?_) ?_
  · rw [afterOffers_station, afterOffers_station, afterOffers_station]
    simp only [List.flatMap_cons, List.flatMap_nil, List.append_nil, List.flatMap_append, h1]
    cases hc : s.stations[id] with
    | free => rfl
    | closing d => rfl
    | opened d =>
      by_cases hm : (id, d) ∈ rings.flatMap (servedOn s)
      · simp only [captured, hm, if_true, List.mem_append, true_or]
        refine if_neg fun h => ?_
        exact absurd rfl (mem_servedOn h).2.2.1
      · simp only [captured, hm, if_false, List.mem_append, false_or]
  · rw [afterOffers_resultRing, afterOffers_resultRing, afterOffers_resultRing]
    by_cases hi : i = n
    · subst hi
      rw [if_pos (List.mem_singleton_self i), if_pos (List.mem_append_right _ (List.mem_singleton_self i)), h1,
        if_neg hn]
    · have hi' : i ∉ [n] := by simpa using hi
      rw [if_neg hi']
      simp only [List.mem_append, hi', or_false]
  · rw [afterOffers_transfers, afterOffers_transfers, afterOffers_transfers]
    simp only [List.flatMap_cons, List.flatMap_nil, List.append_nil, List.flatMap_append, h2, List.append_assoc]

/-- The return to RUNNING (R156, R166). -/
theorem State.resume_spec {s : State} 
    (hz : ∀ (n : ResultRingId) (q : ResultRing), s.resultRings[n] = some q → q.size ≤ 1024) :
    s.resume = afterOffers { s with controller := .running } (List.finRange 4) := by
  have key : ∀ rings : List ResultRingId, rings.Nodup →
      rings.foldl State.offerSlots ({ s with controller := .running } : State) =
        afterOffers { s with controller := .running } rings := by
    intro rings
    induction rings using List.reverseRecOn with
    | nil =>
      intro _
      refine (State.offered_congr (bank_ext fun i => ?_) (bank_ext fun i => ?_) ?_ :
        ({ s with controller := .running } : State).offered _ _ _ = State.offered _ _ _ _)
      · rw [get_ofFn]
        simp only [List.flatMap_nil, captured_nil]
      · rw [get_ofFn]
        rfl
      · simp
    | append_singleton rings n ih =>
      intro hn
      have hn' : n ∉ rings := fun h => by
        have := List.nodup_append.mp hn
        exact this.2.2 n h n (List.mem_singleton_self n) rfl
      rw [List.foldl_append, ih (List.nodup_append.mp hn).1, List.foldl_cons, List.foldl_nil,
        State.offerSlots_spec _ (.inl rfl), afterOffers_append hn']
      intro q hq
      refine hz n q ?_
      rwa [afterOffers_resultRing, if_neg hn'] at hq
  exact key _ (List.nodup_finRange 4)

end Sys2Proof.Machine
end

