-- ==== Sys2Proof/Tests/Slice0.lean ====
section
/-! SUPPORT. The model's own tests: what WellFormed refuses, one or two small tests a command, the manual's worked examples,
and a witness for every statement that has hypotheses. -/
namespace Sys2Proof.Tests
open Sys2Proof.Machine

/-! ## Helpers -/

/-- A block holding the listed contents (offset, size, value), least significant byte first, every other byte 0. -/
def block (contents : List (Nat × Nat × Nat)) : Block64 :=
  Vector.ofFn fun i => contents.foldl (fun acc x =>
    if x.1 ≤ i.val ∧ i.val < x.1 + x.2.1 then BitVec.ofNat 8 (x.2.2 / 256 ^ (i.val - x.1)) else acc) 0

/-- The state a command leaves. -/
def ran (c : Instr) (s : State) : State :=
  match exec c s with
  | .next t => t
  | .fault _ => s
  | .refused _ => s

/-- The state several commands leave. -/
def runs (cs : List Instr) (s : State) : State := cs.foldl (fun s c => ran c s) s

/-- The status a slot answers with. -/
def statusOf (s : State) (k : SlotId) : Option Status :=
  match s.slots[k] with
  | some ⟨_, _, .writing _ c _, _⟩ => some c.status
  | _ => none

/-- The body a slot answers with. -/
def bodyOf (s : State) (k : SlotId) : Option Body :=
  match s.slots[k] with
  | some ⟨_, _, .writing _ c _, _⟩ => some c.body
  | _ => none

def station : Station :=
  { homeRing := 1, noticeRing := 1, frameLines := 1000, applyDelay := 1, profile := Profile.defaults, loop := .idle,
    lastFrame := none, lastMean := none, lastCompensated := none, lastClip := none, older := [],
    newest := ⟨none, 500, 16, 64, 512000, 1⟩, armed := [], pendingSet := 0, noticeArmed := true, noticeInFlight := false,
    measures := 0, decisions := 0, skipped := 0 }

def workRing (size : Nat) (result : ResultRingId) (weight : Option Nat) (posted taken : RingIndex) : WorkRing :=
  { state := .active, base := 0x8000, size := size, resultRing := result, weight := weight, posted := posted,
    taken := taken, written := taken, inFlight := 0 }

def resultRing (size threshold : Nat) (placed produced released : RingIndex) (reserved unsignalled : Nat) : ResultRing :=
  { base := 0x4000, size := size, threshold := threshold, placed := placed, produced := produced, released := released,
    reserved := reserved, unsignalled := unsignalled }

/-- RUNNING, with rings 0 and 1 and result rings 0 and 1, station 4 OPEN, every slot FREE. -/
def busy : State := { State.reset with
  controller := .running
  mask := 0xFF#8
  writeBackAddress := 0x3000
  workRings := ((Vector.replicate 8 none).set 0 (some (workRing 16 0 none 1 0))).set 1 (some (workRing 16 1 (some 2) 5 0))
  resultRings := ((Vector.replicate 4 none).set 0 (some (resultRing 16 4 0 0 0 0 0))).set 1
    (some (resultRing 16 4 0 0 0 0 0))
  stations := (Vector.replicate 32 .free).set 4 (.opened station) }

/-- `busy` with another context for station 4. -/
def with4 (c : Context) : State := { busy with stations := busy.stations.set 4 c }

/-- The task of a record of a ring, in QUEUED. -/
def task (n : WorkRingId) (r : Block64) : Task := ⟨n, 0, .queued (some r), .none⟩

/-- A state with that task in slot 0 and every other slot FREE. -/
def queued (s : State) (n : WorkRingId) (r : Block64) : State :=
  { s with slots := (Vector.replicate 8 none).set 0 (some (task n r)) }

theorem queued_slot (s : State) (n : WorkRingId) (r : Block64) (j : SlotId) :
    (queued s n r).slots[j] = if (0 : SlotId) = j then some (task n r) else none := by
  show ((Vector.replicate 8 none).set (0 : SlotId) (some (task n r)))[j] = _
  rw [get_set]
  simp

theorem queued_runs {s : State} {n : WorkRingId} {r : Block64} {kind : Nat} (h : recordKind r = kind) :
    Runs (queued s n r) 0 (task n r) r kind := by
  refine ⟨by rw [queued_slot]; simp, rfl, ?_, h⟩
  intro j u hu hb
  rw [queued_slot] at hu
  split at hu
  · cases hu
    simp [Task.before, task] at hb
  · cases hu

/-- A witness of a task that executes now, with further premises. -/
def Meets (s : State) (n : WorkRingId) (r : Block64) (kind : Nat) (more : Prop) : Prop :=
  Runs (queued s n r) 0 (task n r) r kind ∧ more

theorem meets {s : State} {n : WorkRingId} {r : Block64} {kind : Nat} {more : Prop} (h : recordKind r = kind ∧ more) :
    Meets s n r kind more := ⟨queued_runs h.1, h.2⟩

/-- A record of a kind with a tag, its station or id byte, and further contents. -/
def record (kind id : Nat) (more : List (Nat × Nat × Nat)) : Block64 :=
  block ([(0x00, 1, kind), (0x02, 2, 0x1234), (0x08, 1, id)] ++ more)

/-- A MEASURE of station 4 on a FLAT synthetic grid of one cell. -/
def flat (frame level : Nat) : Block64 :=
  record 0x10 4 [(0x01, 1, 1), (0x09, 1, 1), (0x0A, 1, 1), (0x0C, 4, frame), (0x18, 2, level)]

/-- A MEASURE of station 4 on a fetched grid of 4 × 3 cells. -/
def fetched (frame : Nat) : Block64 :=
  record 0x10 4 [(0x09, 1, 4), (0x0A, 1, 3), (0x0C, 4, frame), (0x10, 8, 0x5004)]

/-! ## WellFormed: an ill-formed command for each check -/

theorem test_wellFormed_softReset : Instr.wellFormed (.softReset 3) = false := by decide
theorem test_wellFormed_startUp : Instr.wellFormed (.startUp 5) = false ∧ Instr.wellFormed (.startUp 2) = false := by
  decide
theorem test_wellFormed_enableOff :
    Instr.wellFormed (.enableOff 1) = false ∧ Instr.wellFormed (.enableOff 4) = false := by decide
theorem test_wellFormed_quiesce : Instr.wellFormed (.quiesce 1) = false ∧ Instr.wellFormed (.quiesce 2) = false ∧
    Instr.wellFormed (.quiesce 7) = false := by decide
theorem test_wellFormed_quiesceClear : Instr.wellFormed (.quiesceClear 3) = false ∧
    Instr.wellFormed (.quiesceClear 0) = false ∧ Instr.wellFormed (.quiesceClear 5) = false := by decide
theorem test_wellFormed_postWork : Instr.wellFormed (.postWork 0x200000) = false := by decide
theorem test_wellFormed_releaseResult : Instr.wellFormed (.releaseResult 0x100000) = false := by decide
theorem test_wellFormed_badOperation :
    Instr.wellFormed (.badOperation 0x100000) = false ∧ Instr.wellFormed (.badOperation 0x200000) = false := by decide
theorem test_wellFormed_registerWrite : Instr.wellFormed (.registerWrite 0x0C 0 0) = false ∧
    Instr.wellFormed (.registerWrite 0x0C 5 0) = false ∧ Instr.wellFormed (.registerWrite 0x04 4 0) = false := by decide
theorem test_wellFormed_gridReadDone : Instr.wellFormed (.gridReadDone 0 [0, 0, 0]) = false ∧
    Instr.wellFormed (.gridReadDone 0 []) = false ∧
    Instr.wellFormed (.gridReadDone 0 (List.replicate 260 0)) = false := by decide +kernel

/-! ## Arithmetic: the manual's worked examples -/

/-- The profile of WORKED METERING EXAMPLE (chapter 2). -/
def meteringProfile : Profile := { Profile.defaults with
  colLo := 1, colHi := 3, rowLo := 1
  weightRows := (Profile.defaults.weightRows.set 1 0x11110421#32).set 2 0x11111311#32
  clipCellsMax := 1 }

/-- The grid of WORKED METERING EXAMPLE. -/
def meteringCells : List Cell :=
  [⟨500, 0, true⟩, ⟨600, 0, true⟩, ⟨700, 0, true⟩, ⟨800, 0, true⟩, ⟨900, 0, true⟩, ⟨1200, 10, true⟩, ⟨2000, 0, true⟩,
    ⟨4095, 255, true⟩, ⟨100, 0, true⟩, ⟨3000, 250, true⟩, ⟨800, 0, false⟩, ⟨3900, 245, true⟩]

/-- WORKED METERING EXAMPLE: M = 2,162, clip count 2, veto. -/
theorem test_meter : meter meteringProfile 4 meteringCells = ⟨some 2162, 2, true⟩ := by decide

/-- WORKED SYNTHETIC EXAMPLE: RAMP with B = 1,000, S = 200 on 3 × 2 cells has M = 1,300. -/
theorem test_synthesize : meter Profile.defaults 3 (synthesize true 1000 200 3 2) = ⟨some 1300, 0, false⟩ := by decide

/-- WORKED SYNTHETIC EXAMPLE: RAMP with B = 3,800, S = 100: cell (2, 1) is clamped to 4,095. -/
theorem test_synthesize_clamps : ((synthesize true 3800 100 8 8).map (·.mean))[10]? = some 4095 := by decide

/-- The same product under every ORDER (chapter 4): QUANTUM 100, level 64 … 256. -/
theorem test_decompose : ([Order.igl, .ilg, .lig, .lgi, .gil, .gli].map fun o =>
    decompose { Profile.defaults with quantum := 100, lvlMin := 64, order := o } 1000 10000000) =
      [⟨1000, 156, 64⟩, ⟨1000, 39, 256⟩, ⟨1000, 39, 256⟩, ⟨100, 256, 256⟩, ⟨600, 256, 65⟩, ⟨100, 256, 256⟩] := by decide

/-- Extended integration and the integration floor over the quantum (chapter 4). -/
theorem test_decompose_extended :
    let p := { Profile.defaults with extMax := 2, intMax := 2500, quantum := 100, order := .lig }
    decompose p 1000 30000000 = ⟨2000, 58, 256⟩ ∧ decompose p 1000 200000 = ⟨48, 16, 256⟩ ∧
      decompose { p with intMin := 150 } 1000 737280 = ⟨150, 19, 256⟩ := by decide

/-- Initial values at open (chapter 4): I 2,345, G 1,000, L 10 are treated to 2,000, 256, 64. -/
theorem test_treat : treat { Profile.defaults with extMax := 1, lvlMin := 64 } 1000 2345 1000 10 = ⟨2000, 256, 64⟩ ∧
    spanOf 1000 2000 = 2 := by decide

/-- WORKED SEEK SEQUENCE, frames 100, 106 and 108: the new products of a proportional step. -/
theorem test_stepProduct : stepProduct Profile.defaults 512000 600 true = 1024000 ∧
    stepProduct Profile.defaults 1472000 2400 false = 1288000 ∧
    stepProduct Profile.defaults 960000 1565 true = 1032076 := by decide

/-- WORKED PINNED SEQUENCE, frame 302: truncation toward E on the way down, and the gain that gives way. -/
theorem test_stepProduct_down : stepProduct Profile.defaults 65536000 1950 false = 63015385 ∧
    decompose Profile.defaults 1000 63015385 = ⟨1000, 246, 256⟩ := by decide

/-! ## Tasks -/

theorem test_queryDevice : bodyOf (ran (.queryDevice 0) (queued busy 0 (record 1 0 []))) 0 =
    some (.queryDevice 24 8 7) := by decide

def createRecord : Block64 := record 2 2 [(0x09, 1, 1), (0x0A, 1, 3), (0x0C, 2, 16), (0x10, 8, 0x9000)]

theorem test_createWorkRing : (ran (.createWorkRing 0) (queued busy 0 createRecord)).workRings[2] =
    some { state := .active, base := 0x9000, size := 16, resultRing := 1, weight := some 3, posted := 0, taken := 0,
           written := 0, inFlight := 0 } := by decide

theorem test_deleteWorkRing : statusOf (ran (.deleteWorkRing 0) (queued busy 0 (record 3 1 []))) 0 = some .ringInUse ∧
    bodyOf (ran (.deleteWorkRing 0) (queued (with4 .free) 0 (record 3 1 []))) 0 = some (.deleteWorkRing 1 0 5) := by decide

def createResultRecord : Block64 := record 4 2 [(0x0C, 2, 8), (0x0E, 2, 8), (0x10, 8, 0xA020)]

theorem test_createResultRing : (ran (.createResultRing 0) (queued busy 0 createResultRecord)).resultRings[2] =
    some { base := 0xA020, size := 8, threshold := 8, placed := 0, produced := 0, released := 0, reserved := 0,
           unsignalled := 0 } := by decide

theorem test_deleteResultRing : statusOf (ran (.deleteResultRing 0) (queued busy 0 (record 5 1 []))) 0 = some .ringInUse ∧
    statusOf (ran (.deleteResultRing 0) (queued busy 0 (record 5 2 []))) 0 = some .noRing := by decide

def openRecord : Block64 := record 8 5 [(0x09, 1, 1), (0x0A, 1, 1), (0x0B, 1, 0xFF), (0x0C, 2, 1000), (0x0E, 1, 1),
  (0x10, 2, 2345), (0x12, 2, 1000), (0x14, 2, 10)]

/-- R73: the cap of EXT_MAX 0 is one frame, so I 2,345 is treated to 1,000 and G 1,000 to 256. -/
theorem test_openStation : bodyOf (ran (.openStation 0) (queued busy 0 openRecord)) 0 =
    some (.openStation 0xFF .idle 0 5 1000 256 10) := by decide

theorem test_closeStation :
    (ran (.closeStation 0) (queued (with4 (.opened { station with noticeInFlight := true })) 0 (record 9 4 []))).slots[0] =
      some ⟨0, 0, .drainWait (record 9 4 []) (.close 4 []), .none⟩ ∧
    (ran (.closeStation 0) (queued busy 0 (record 9 4 []))).stations[4] = .free := by decide

/-- R194: station 4, OPEN, home and notice ring 1, F = 1,000 (0x3E8), d = 1, IDLE, no present marks, notice armed. -/
theorem test_readStation : ((snapshotBytes 4 .opened station busy.sets).take 10 = [4, 1, 1, 1, 0xE8, 3, 1, 0, 0, 1]) ∧
    statusOf (ran (.readStation 0) (queued busy 0 (record 0x0A 4 [(0x10, 8, 0x40)]))) 0 = some .ok := by decide

/-- WORKED SEEK SEQUENCE, frame 100: 101 holds 1,000, 16, 64; SEEKING with SEEK. -/
theorem test_measure : let t := ran (.measure 0) (queued busy 1 (flat 100 600))
    ((t.stations[4]).station.map fun c => (c.history, c.loop, c.pendingSet)) =
      some ([⟨none, 500, 16, 64, 512000, 1⟩, ⟨some 101, 1000, 16, 64, 1024000, 1⟩], .seeking, 0x002#9) := by decide

/-- R86: a frame that is not after the last frame. -/
theorem test_measure_stale :
    bodyOf (ran (.measure 0) (queued (with4 (.opened { station with lastFrame := some 100 })) 1 (flat 100 600))) 0 =
      some (.home .skippedStale false none none none (some ⟨.idle, station.newest⟩)) := by decide

theorem test_freeze : (ran (.freeze 0) (queued busy 1 (record 0x11 4 []))).stations[4] =
    .opened { station with loop := .frozen } := by decide

theorem test_thaw :
    (ran (.thaw 0) (queued (with4 (.opened { station with loop := .frozen })) 1 (record 0x12 4 []))).stations[4] =
      .opened { station with loop := .seeking, pendingSet := 0x002#9 } := by decide

theorem test_reseek :
    let c := { station with loop := .settled, lastFrame := some 9, older := [station.newest] }
    (ran (.reseek 0) (queued (with4 (.opened c)) 1 (record 0x13 4 []))).stations[4] = .opened station := by decide

def actuators (i g l : Nat) : Block64 := record 0x14 4 [(0x0C, 4, 50), (0x10, 2, i), (0x12, 2, g), (0x14, 2, l)]

theorem test_setActuators : (ran (.setActuators 0) (queued busy 1 (actuators 600 32 10))).stations[4] =
    .opened { station with
      newest := ⟨some 50, 600, 32, 10, 192000, 1⟩, loop := .seeking, pendingSet := 0x002#9 } := by decide

theorem test_ackNotice :
    (ran (.ackNotice 0) (queued (with4 (.opened { station with noticeArmed := false })) 1 (record 0x15 4 []))).stations[4] =
      .opened station := by decide

theorem test_stageOpen : bodyOf (ran (.stageOpen 0) (queued busy 1 (record 0x18 0 []))) 0 =
    some (.stage 0 24 7 0 0 0 .free 0 0) := by decide

/-- A state whose set 0 is as named. -/
def withSet (x : StagingSet) (s : State) : State := { s with sets := s.sets.set 0 x }

/-- Step 2 of WORKED EXAMPLE: TWO ARMED SETS. -/
def putRecord : Block64 := record 0x19 0 [(0x09, 1, 4), (0x10, 1, 1), (0x14, 4, 2000), (0x18, 1, 2), (0x1C, 4, 2200),
  (0x20, 1, 4), (0x24, 4, 2400), (0x28, 1, 1), (0x2C, 4, 2050)]

theorem test_stagePut : (ran (.stagePut 0) (queued (withSet (.opened 1 []) busy) 1 putRecord)).sets[0] =
    .opened 1 [(.innerLo, 2050), (.innerHi, 2200), (.outerHi, 2400)] := by decide

def commitRecord (id mode frame : Nat) : Block64 := record 0x1A id [(0x09, 1, 4), (0x0A, 1, mode), (0x0C, 4, frame)]

/-- Step 8 of WORKED EXAMPLE: TWO ARMED SETS: 1@1,005 stands before 0@1,010. -/
theorem test_stageCommit :
    let s := withSet (.armed 1 [] 4 1010) { with4 (.opened { station with armed := [0] }) with
      sets := (Vector.replicate 8 .free).set 1 (.opened 1 []) }
    ((ran (.stageCommit 0) (queued s 1 (commitRecord 1 1 1005))).stations[4]).station.map (·.armed) = some [1, 0] := by
  decide

/-- Step 12 of WORKED EXAMPLE: TWO ARMED SETS: set 0 fails relation 5 over the profile that set 1 left. -/
theorem test_landItems :
    let after := landItems [(.rowLo, 2), (.rushHi, 2300)] station
    (after.profile.rowLo, after.profile.rushHi) = (2, 2300) ∧ after.pendingSet = 0x040#9 ∧
      landItems [(.innerLo, 2050), (.innerHi, 2200), (.outerHi, 2400)] after =
        { after with pendingSet := 0x0C0#9 } := by decide

theorem test_stageDiscard :
    let s := withSet (.armed 1 [] 4 7) (with4 (.opened { station with armed := [0] }))
    let t := ran (.stageDiscard 0) (queued s 1 (record 0x1B 0 []))
    t.sets[0] = .free ∧ t.stations[4] = .opened station := by decide

theorem test_badKind : statusOf (ran (.badKind 0) (queued busy 1 (record 0x06 0 []))) 0 = some .badKind := by decide

theorem test_recordUnreadable :
    bodyOf (ran (.recordUnreadable 0) { busy with slots := busy.slots.set 0 (some ⟨1, 9, .queued none, .none⟩) }) 0 =
      some (.unreadable 9) := by decide

/-! ## The controller and the register window -/

def setupBlock : Block64 := block [(0, 4, 1), (0x08, 8, 0x10000), (0x10, 2, 16), (0x18, 8, 0x20000), (0x20, 2, 16),
  (0x22, 2, 1), (0x28, 8, 0x30000)]

/-- Start-up from OFF to the zeroing write in flight. -/
def zeroing : State :=
  runs [.maskWrite 0xFF, .registerWrite 0x0C 4 0x1000, .startUp 1, .setupReadDone setupBlock] State.reset

theorem test_startUp : (ran (.startUp 1) State.reset).controller = .starting ∧
    (ran (.startUp 1) { State.reset with setupLo := 1 }).haltCause = .setupInvalid := by decide

theorem test_setupReadDone : zeroing.transfers =
    [⟨.zeroing, 0x30000, .write (List.replicate 32 0), false, false, 0⟩] := by decide

theorem test_setupReadFault :
    (runs [.startUp 1, .setupReadFault] State.reset).haltCause = .setupReadFault := by decide

theorem test_writebackZeroingDone : let t := ran .writebackZeroingDone zeroing
    (t.controller, t.cause, t.messages.length, t.writeBackAddress) = (.running, 0x10#8, 1, 0x30000#64) := by decide

theorem test_softReset : let t := ran (.softReset 4) busy
    (t.controller, t.resetCause, t.mask) = (.off, .soft, 0#8) := by decide

theorem test_enableOff : let t := ran (.enableOff 2) busy
    (t.controller, t.quiesceBit, t.mask) = (.off, true, 0xFF#8) := by decide

theorem test_quiesce : (ran (.quiesce 3) busy).controller = .quiesced ∧ (ran (.quiesce 3) busy).cause = 0x20#8 ∧
    (ran (.quiesce 3) (queued busy 1 (flat 1 1))).controller = .quiescing := by decide

theorem test_quiesceClear :
    (ran (.quiesceClear 1) { busy with controller := .quiesced, quiesceBit := true }).controller = .running := by
  decide +kernel

/-- R120: ring 1 of size 16 with posted and taken as in `busy`: 16 ahead of taken is accepted, 17 is OVERRUN, and a step
back behind the posted index is REGRESS. -/
theorem test_postWork : ((ran (.postWork 0x110010) busy).workRings[1]).map (·.posted) = some 16 ∧
    (ran (.postWork 0x110011) busy).rejection = ⟨1, .overrun, 1⟩ ∧
    (ran (.postWork 0x110004) busy).rejection = ⟨1, .regress, 1⟩ := by decide

/-- Step 3 of WORKED EXAMPLE: A FULL RING AND A WAITING NOTICE: the release to 19 emits stations 3 and 6 at 22 and 23. -/
def fullRing : State := { busy with
  resultRings := busy.resultRings.set 1 (some (resultRing 8 4 22 22 16 2 2))
  stations := ((Vector.replicate 32 .free).set 3 (.opened { station with pendingSet := 2 })).set 6
    (.opened { station with pendingSet := 1 }) }

theorem test_releaseResult : let t := ran (.releaseResult 0x210013) fullRing
    t.resultRings[1] = some (resultRing 8 4 24 22 19 2 2) ∧
      t.transfers.map (·.kind) = [.notice 3 1 22, .notice 6 1 23] := by decide +kernel

/-- Steps 5 and 6 of the same example: the produced index waits for index 22, then the count reaches the threshold. -/
theorem test_resultWriteDone_notice :
    let five := ran (.resultWriteDone 1 23) { ran (.releaseResult 0x210013) fullRing with
      slots := busy.slots.set 0 (some ⟨1, 51, .reading, .none⟩) }
    let six := ran (.resultWriteDone 1 22) five
    five.resultRings[1] = some (resultRing 8 4 24 22 19 2 3) ∧ six.resultRings[1] = some (resultRing 8 4 24 24 19 2 0) ∧
      six.cause = 0x02#8 := by decide +kernel

theorem test_badOperation : (ran (.badOperation 0x350000) busy).rejection = ⟨3, .badOperation, 5⟩ := by decide

theorem test_causeClear : (ran (.causeClear 0xF0) { busy with cause := 0x33#8 }).cause = 0x03#8 := by decide

theorem test_maskWrite : let t := ran (.maskWrite 0x10) { busy with cause := 0x30#8, mask := 0 }
    (t.mask, t.messages.length) = (0x10#8, 1) := by decide

theorem test_registerWrite : (ran (.registerWrite 0x10 4 7) busy).setupHi = 7 ∧
    (ran (.registerWrite 0x10 2 7) busy).setupHi = 0 := by decide

/-- R187: IDENT, and STATUS of a RUNNING device after power-on. -/
theorem test_readRegister : busy.readRegister 0x000 = 0x06102C01#32 ∧ busy.readRegister 0x008 = 2#32 ∧
    busy.readRegister 0x004 = 1#32 ∧ busy.readRegister 0x014 = 0#32 := by decide

/-- R187, R195: the two high bytes of IDENT; no value across a register's end; 0 from 0x20 up; nothing with the
memory-space enable 0. -/
theorem test_readBytes : busy.readBytes 0x002 2 = some [0x10, 0x06] ∧ busy.readBytes 0x002 4 = none ∧
    busy.readBytes 0x021 4 = some [0, 0, 0, 0] ∧
    ({ busy with link := ⟨true, false, true, 0, 0⟩ } : State).readBytes 0x000 4 = none := by decide

theorem test_powerOnReset : ran .powerOnReset busy = { State.reset with epoch := 1 } := by decide
theorem test_pinReset : ran .pinReset busy = { State.reset with resetCause := .pin, epoch := 1 } := by decide

/-! ## Transfers and the device's own events -/

/-- WORKED ARBITRATION RUN, before take 1. -/
def arbitration : State := { busy with
  workRings := ((busy.workRings.set 1 (some (workRing 16 1 (some 2) 45 40))).set 2
    (some (workRing 16 1 (some 1) 9 7))).set 3 (some (workRing 16 2 (some 3) 106 100))
  resultRings := (busy.resultRings.set 1 (some (resultRing 64 64 0 0 0 0 0))).set 2
    (some (resultRing 8 8 5 5 0 0 0)) }

/-- WORKED ARBITRATION RUN, takes 1 to 4. -/
theorem test_take : let t := runs [.take, .take, .take, .take] arbitration
    (t.slots.toList.take 4).map (Option.map fun u => (u.ring, u.index)) =
      [some (0, 0), some (1, 40), some (1, 41), some (2, 7)] ∧ (t.pointer, t.runCounter) = (2, 1) := by decide

/-- WORKED ARBITRATION RUN, takes 5 to 8 from the state that take 4 leaves: ring 3 until its result ring is reserved, then
the search wraps to ring 1. -/
theorem test_take_wraps :
    let t := runs [.take, .take, .take, .take] { arbitration with
      pointer := 2, runCounter := 1
      slots := (((busy.slots.set 0 (some ⟨0, 0, .reading, .none⟩)).set 1 (some ⟨1, 40, .reading, .none⟩)).set 2
        (some ⟨1, 41, .reading, .none⟩)).set 3 (some ⟨2, 7, .reading, .none⟩)
      workRings := ((arbitration.workRings.set 0 (some { workRing 16 0 none 1 1 with inFlight := 1 })).set 1
        (some { workRing 16 1 (some 2) 45 42 with inFlight := 2 })).set 2
        (some { workRing 16 1 (some 1) 9 8 with inFlight := 1 }) }
    (t.slots.toList.drop 4).map (Option.map fun u => (u.ring, u.index)) =
      [some (3, 100), some (3, 101), some (3, 102), some (1, 42)] ∧ (t.pointer, t.runCounter) = (1, 1) := by decide

/-- `busy` with a task of ring 1 being read into slot 0. -/
def reading : State := { busy with
  slots := busy.slots.set 0 (some ⟨1, 0, .reading, .none⟩)
  workRings := busy.workRings.set 1 (some { workRing 16 1 (some 2) 5 1 with written := 0, inFlight := 1 })
  resultRings := busy.resultRings.set 1 (some (resultRing 16 4 0 0 0 1 0))
  transfers := [⟨.recordRead 0 1 0, 0x8000, .read 64, false, false, 0⟩] }

/-- The record of a fetched grid starts the grid read of 4 × 12 bytes; the written taken index moves to 1 and is written
back to place 0x02. -/
theorem test_recordReadDone : (ran (.recordReadDone 0 (fetched 7)) reading).transfers =
    [⟨.gridRead 0, 0x5004, .read 48, false, false, 0⟩, ⟨.writeBack (.taken 1), 0x3002, .write [1, 0], false, false, 0⟩] := by
  decide

theorem test_recordReadFault : ((ran (.recordReadFault 0) reading).workRings[1]).map (·.state) = some .faulted ∧
    (ran (.recordReadFault 0) reading).slots[0] = some ⟨1, 0, .queued none, .none⟩ := by decide

/-- `busy` with a fetched MEASURE in slot 0 and its grid read in flight. -/
def fetching : State := { busy with
  slots := busy.slots.set 0 (some ⟨1, 0, .fetching (fetched 7), .inFlight⟩)
  transfers := [⟨.gridRead 0, 0x5004, .read 48, false, false, 0⟩] }

/-- R191: cell words 0x80FF0123 and, eleven times, 0. -/
theorem test_gridReadDone :
    (ran (.gridReadDone 0 ([0x23, 0x01, 0xFF, 0x80] ++ List.replicate 44 0)) fetching).slots[0].map (·.grid) =
      some (.held (⟨0x123, 255, true⟩ :: List.replicate 11 ⟨0, 0, false⟩)) := by decide

theorem test_gridReadFault : (ran (.gridReadFault 0) fetching).slots[0] =
    some ⟨1, 0, .queued (some (fetched 7)), .failed⟩ := by decide

/-- A completion, and `busy` with it in WRITING in slot 0, a reservation held. -/
def done : Completion := ⟨.ok, 0x1234, 1, 4, .readStation .opened .idle⟩

def writing (kinds : List TransferKind) : State := { busy with
  slots := busy.slots.set 0 (some ⟨1, 0, .writing (some (record 0x0A 4 [])) done none, .none⟩)
  workRings := busy.workRings.set 1 (some { workRing 16 1 (some 2) 5 1 with inFlight := 1 })
  resultRings := busy.resultRings.set 1 (some (resultRing 16 4 0 0 0 1 0))
  transfers := kinds.map fun k => ⟨k, 0x4000, .write done.bytes, false, false, 0⟩ }

theorem test_snapshotWriteDone : (ran (.snapshotWriteDone 0) (writing [.snapshot 0])).transfers = [] ∧
    Memory.read (ran (.snapshotWriteDone 0) (writing [.snapshot 0])).hostMemory 0x4000 = some 0x81#8 := by decide

theorem test_snapshotWriteFault : statusOf (ran (.snapshotWriteFault 0) (writing [.snapshot 0])) 0 = some .bufferFault := by
  decide

/-- R192: the first eight bytes of the completion of tag 0x1234 from ring 1 about station 4. -/
theorem test_resultWrite : done.bytes.take 8 = [0x81, 0, 0x34, 0x12, 1, 4, 0, 0] ∧ done.bytes.length = 32 ∧
    (ran (.resultWrite 0) (writing [])).resultRings[1] = some (resultRing 16 4 1 0 0 0 0) := by decide

/-- R158: the table empties, so the ring is announced below its threshold. -/
theorem test_resultWriteDone :
    let t := ran (.resultWriteDone 1 0) (ran (.resultWrite 0) (writing []))
    t.resultRings[1] = some (resultRing 16 4 1 1 0 0 0) ∧ t.cause = 0x02#8 ∧ t.slots[0] = none := by decide

theorem test_resultWriteFault : let t := ran (.resultWriteFault 1 0) (ran (.resultWrite 0) (writing []))
    (t.controller, t.haltCause, t.transfers) = (.halted, .resultWriteFault, []) := by decide

theorem test_writebackDone :
    Memory.read (ran (.writebackDone (.taken 1)) (busy.writeBack (.taken 1) 0x0102)).hostMemory 0x3002 = some 2#8 := by
  decide

theorem test_writebackFault :
    (ran (.writebackFault (.taken 1)) (busy.writeBack (.taken 1) 1)).haltCause = .writebackFault := by decide

theorem test_writebackZeroingFault : (ran .writebackZeroingFault zeroing).haltCause = .writebackFault := by decide

/-- `busy` with a task in DRAIN_WAIT in slot 0 and station 4 as named. -/
def draining (kind : Nat) (d : Drain) (c : Context) : State :=
  { with4 c with slots := busy.slots.set 0 (some ⟨0, 0, .drainWait (record kind 4 []) d, .none⟩) }

theorem test_closeDrainEnd : let t := ran (.closeDrainEnd 0) (draining 9 (.close 4 []) (.closing station))
    t.stations[4] = .free ∧ bodyOf t 0 = some (.closeStation 0 0 0 0) := by decide

theorem test_deleteDrainEnd : let t := ran (.deleteDrainEnd 0) (draining 3 (.delete 1) .free)
    t.workRings[1] = none ∧ bodyOf t 0 = some (.deleteWorkRing 1 0 5) := by decide

theorem test_noticeEmission : let t := ran (.noticeEmission 3) fullRing
    let u := ran (.noticeEmission 3) { fullRing with resultRings := busy.resultRings }
    t = fullRing ∧ u.transfers.map (·.kind) = [.notice 3 1 0] := by decide

theorem test_linkDown : (ran .linkDown fetching).transfers = [⟨.gridRead 0, 0x5004, .read 48, true, false, 0⟩] := by
  decide

theorem test_linkUp : (ran .linkUp (ran .linkDown busy)) = busy := by decide

theorem test_completionTimeout : (ran (.gridReadDone 0 (List.replicate 48 0))
    (ran (.completionTimeout (.grid 0)) fetching)).slots[0].map (·.grid) = some .inFlight := by decide

theorem test_configurationSpaceWrite : ran (.startUp 1)
    (ran (.configurationSpaceWrite ⟨true, false, true, 0, 0⟩) State.reset) =
      { State.reset with link := ⟨true, false, true, 0, 0⟩ } := by decide

/-- R164, R169: the late end of the setup read that ENABLE_OFF abandoned is no end of the one that the next start-up
requests, whose own end halts. -/
theorem test_lateEnd : let t := runs [.startUp 1, .enableOff 0, .startUp 1] State.reset
    ran .setupReadFault t = t ∧ (ran (.setupReadFault 1) t).haltCause = .setupReadFault := by decide

/-- R176, R195: a write-back requested while the link is down passes none of its bytes. -/
theorem test_refusedWrite : (runs [.linkDown, .createWorkRing 0, .writebackFault (.taken 2)]
    (queued busy 0 createRecord)).hostMemory = [] := by decide

/-- No row of the table gives bits. -/
theorem test_decodeTableWord : decodeTableWord 8 0 = none := by decide


/-! ## Witnesses: states and operands that meet the hypotheses of the statements -/

theorem witness_StepRunsFrontCommand :
    ({ busy with pending := [.take] } : State).pending = .take :: [] ∧ busy.pending = [] := by decide

theorem witness_ResetsClearTheDevice : ∃ t, exec .pinReset busy = .next t ∧ t.resetCause ≠ busy.resetCause :=
  ⟨_, rfl, by decide⟩

theorem witness_TeardownWrites : busy.link.memorySpace = true ∧ (4#32).getLsbD 2 = true ∧ (2#32).getLsbD 2 = false ∧
    (2#32).getLsbD 0 = false ∧ busy.controller ≠ .off ∧ State.reset.link.memorySpace = true ∧
    State.reset.controller = .off := by decide

/-- Setup addresses: the last multiple of 64 below 2^32, and one that is a multiple of 32 only. -/
theorem witness_StartUpBegins : let aligned := { State.reset with setupLo := 0xFFFFFFC0 }
    let odd := { State.reset with setupLo := 0x20, setupHi := 1 }
    (1#32).getLsbD 2 = false ∧ (1#32).getLsbD 0 = true ∧ aligned.controller = .off ∧ odd.controller = .off ∧
      aligned.link.memorySpace = true ∧ odd.link.memorySpace = true ∧
      (aligned.setupHi.toNat * 2 ^ 32 + aligned.setupLo.toNat) % 64 = 0 ∧
      (odd.setupHi.toNat * 2 ^ 32 + odd.setupLo.toNat) % 64 ≠ 0 := by decide

/-- A setup block whose threshold is one above its ring's size. -/
def badBlock : Block64 := block [(0, 4, 1), (0x08, 8, 0x10000), (0x10, 2, 16), (0x18, 8, 0x20000), (0x20, 2, 16),
  (0x22, 2, 17), (0x28, 8, 0x30000)]

theorem witness_StartUpEnds :
    (let s := ran (.startUp 1) State.reset
     s.controller = .starting ∧ (∃ x, oldest s TransferKind.setupRead 0 = some x ∧ x.payload = .read 64 ∧
       x.failing = false) ∧ SetupInRange setupBlock ∧ ¬SetupInRange badBlock) ∧
    ∃ u x data, zeroing.controller = .starting ∧ zeroing.heldSetup = some u ∧
      oldest zeroing TransferKind.zeroing 0 = some x ∧ x.payload = .write data ∧ x.failing = false := by
  refine ⟨⟨rfl, ⟨_, rfl, rfl, rfl⟩, by constructor <;> decide, fun h => absurd h.thresholdHigh (by decide)⟩, ?_⟩
  exact ⟨_, _, _, rfl, rfl, rfl, rfl, rfl⟩

theorem witness_QuiesceStopsTakes : (3#32).getLsbD 2 = false ∧ (3#32).getLsbD 0 = true ∧ (3#32).getLsbD 1 = true ∧
    (busy.link.memorySpace = true ∧ busy.controller = .running ∧ busy.quiesceBit = false ∧
      ∀ k : SlotId, busy.slots[k] = none) ∧
    (reading.link.memorySpace = true ∧ reading.controller = .running ∧ reading.quiesceBit = false ∧
      ∃ k : SlotId, reading.slots[k] ≠ none) ∧
    (State.reset.controller = .off ∧ zeroing.link.memorySpace = true ∧ zeroing.controller ≠ .off ∧
      zeroing.controller ≠ .running) := by decide

theorem witness_QuiesceClearResumes : (1#32).getLsbD 2 = false ∧ (1#32).getLsbD 0 = true ∧ (1#32).getLsbD 1 = false ∧
    (let s := { fullRing with controller := .quiesced, quiesceBit := true }
     s.link.memorySpace = true ∧ s.controller = .quiesced ∧ s.quiesceBit = true ∧
       ∀ n : ResultRingId, ∀ q ∈ s.resultRings[n], q.size ≤ 1024) ∧
    (zeroing.link.memorySpace = true ∧ zeroing.controller = .starting) ∧
    ({ busy with controller := .quiesced } : State).quiesceBit = false ∧
    State.reset.link.memorySpace = true ∧ State.reset.controller = .off := by decide

theorem witness_ControllerMoves : ∃ t, exec (.startUp 1) State.reset = .next t := ⟨_, rfl⟩

/-- A halted device with a write-back in flight. -/
def halted : State := { busy with
  controller := .halted, haltCause := .resultWriteFault
  transfers := [⟨.writeBack (.taken 1), 0x3002, .write [1, 0], false, false, 0⟩] }

theorem witness_HaltedKeepsItsState : AtRestHalted halted ∧ ctrlWriteOf .take = none ∧ Instr.take ≠ .powerOnReset ∧
    Instr.take ≠ .pinReset ∧ ∃ t, exec .take halted = .next t :=
  ⟨⟨rfl, by decide, by decide⟩, by decide, by decide, by decide, _, rfl⟩

/-- Ring 1 of `busy` has size 16, taken 0 and posted 5. -/
theorem witness_PostWorkChecks : busy.link.memorySpace = true ∧
    (∀ v ∈ [0x180000#32, 0x120000#32, 0x110011#32, 0x110004#32, 0x110005#32, 0x110010#32], v.extractLsb' 20 4 = 1#4) ∧
    8 ≤ ((0x180000#32).extractLsb' 16 4).toNat ∧
    (((0x120000#32).extractLsb' 16 4).toNat = (2 : WorkRingId).val ∧ busy.workRings[(2 : WorkRingId)] = none) ∧
    ((0x110011#32).extractLsb' 16 4).toNat = (1 : WorkRingId).val ∧ ∃ w, busy.workRings[(1 : WorkRingId)] = some w ∧
      w.size < ((0x110011#32).extractLsb' 0 16 - w.taken).toNat ∧
      (((0x110004#32).extractLsb' 0 16 - w.taken).toNat ≤ w.size ∧
        w.size < ((0x110004#32).extractLsb' 0 16 - w.posted).toNat) ∧
      ∀ v ∈ [0x110005#32, 0x110010#32], (v.extractLsb' 0 16 - w.taken).toNat ≤ w.size ∧
        (v.extractLsb' 0 16 - w.posted).toNat ≤ w.size := by
  refine ⟨by decide, by simp, by decide, by decide, by decide, _, rfl, by decide, by decide, ?_⟩
  simp [workRing]

/-- Result ring 1 of `fullRing` has size 8, produced 22 and released 16. -/
theorem witness_ReleaseResultChecks : fullRing.link.memorySpace = true ∧
    (∀ v ∈ [0x240000#32, 0x220000#32, 0x210017#32, 0x21001E#32, 0x21000F#32, 0x210010#32, 0x210016#32],
      v.extractLsb' 20 4 = 2#4) ∧
    4 ≤ ((0x240000#32).extractLsb' 16 4).toNat ∧
    (((0x220000#32).extractLsb' 16 4).toNat = (2 : ResultRingId).val ∧ fullRing.resultRings[(2 : ResultRingId)] = none) ∧
    ((0x210016#32).extractLsb' 16 4).toNat = (1 : ResultRingId).val ∧
    ∃ q, fullRing.resultRings[(1 : ResultRingId)] = some q ∧
      (∀ v ∈ [0x210017#32, 0x21001E#32], 1 ≤ (v.extractLsb' 0 16 - q.produced).toNat ∧
        (v.extractLsb' 0 16 - q.produced).toNat ≤ q.size) ∧
      (q.size < ((0x21000F#32).extractLsb' 0 16 - q.produced).toNat ∧
        (q.produced - q.released).toNat < ((0x21000F#32).extractLsb' 0 16 - q.released).toNat) ∧
      (q.size < ((0x210010#32).extractLsb' 0 16 - q.produced).toNat ∧ (0x210010#32).extractLsb' 0 16 = q.released) ∧
      ((0x210016#32).extractLsb' 0 16 = q.produced ∧ (0x210016#32).extractLsb' 0 16 ≠ q.released ∧
        ((0x210016#32).extractLsb' 0 16 - q.released).toNat ≤ (q.produced - q.released).toNat) ∧
      (fullRing.controller = .running ∧ q.size ≤ 1024) ∧
      ({ fullRing with controller := .quiesced } : State).controller ≠ .running := by
  refine ⟨by decide, by simp, by decide, by decide, by decide, _, rfl, by simp [resultRing], by decide, by decide,
    by decide, by decide, by decide⟩

theorem witness_RejectionCauseAndMaskWrites : busy.link.memorySpace = true ∧ (0x010000#32).extractLsb' 20 4 ≠ 1#4 ∧
    (0x010000#32).extractLsb' 20 4 ≠ 2#4 ∧ (0x310000#32).extractLsb' 20 4 ≠ 2#4 ∧ (7 : Nat) < 8 := by decide

theorem witness_MessageAtTheEdge : ∃ t, exec (.maskWrite 0x10) { busy with cause := 0x10#8, mask := 0 } = .next t ∧
    t.messages ≠ [] := ⟨_, rfl, by decide⟩

theorem witness_WindowWrites : (3 : Nat) ≠ 4 ∧ (0x00E#12).toNat % 4 ≠ 0 ∧ 0x20 ≤ (0x020#12).toNat ∧
    0x20 ≤ (0xFFC#12).toNat ∧ busy.link.memorySpace = true ∧
    ({ busy with link := ⟨true, false, true, 0, 0⟩ } : State).link.memorySpace = false := by decide

theorem witness_CtrlAndStatusRead : 0x20 ≤ (0x020#12).toNat ∧ busy.link.memorySpace = true ∧
    (0x006#12).toNat % 4 + 2 ≤ 4 ∧ (0x008#12).toNat % 4 + 4 ≤ 4 ∧ (0xFFC#12).toNat + 4 ≤ 0x1000 ∧
    ({ busy with link := ⟨true, false, true, 0, 0⟩ } : State).link.memorySpace = false := by decide

/-- The grid read of `fetching` as requested in the next epoch. -/
def refetching : State := { fetching with transfers := [⟨.gridRead 0, 0x5004, .read 48, false, false, 1⟩] }

/-- The task of slot 0 is not QUEUED, holds a known kind, or holds its record; and no transfer is in flight, or one that
can only fail, or one of another epoch. -/
theorem witness_OutOfTurnChangesNothing : (∀ t r, ¬Runs reading 0 t r 0x11) ∧
    (∀ t r, Runs (queued busy 1 (record 0x11 4 [])) 0 t r (recordKind r) → recordKind r ∈ Kind.known) ∧
    (∀ t ∈ (queued busy 1 (record 0x11 4 [])).slots[(0 : SlotId)], t.phase ≠ .queued none) ∧
    (isEnd (.gridReadDone 0 []) = true ∧
      (∀ x ∈ refetching.transfers, endsDone (.gridReadDone 0 []) x = true → x.failing = true) ∧
      ∀ x ∈ refetching.transfers, endsFailed (.gridReadDone 0 []) x = false) ∧
    (isEnd (.gridReadDone 0 []) = true ∧ (∀ x ∈ busy.transfers, endsDone (.gridReadDone 0 []) x = true → x.failing = true) ∧
      ∀ x ∈ busy.transfers, endsFailed (.gridReadDone 0 []) x = false) ∧
    (∃ x, x ∈ (ran .linkDown fetching).transfers ∧ endsDone (.gridReadDone 0 []) x = true ∧ x.failing = true ∧
      endsFailed (.gridReadDone 0 []) x = false) := by
  refine ⟨fun t r h => ?_, fun t r h => ?_, by decide, by decide, by decide, _, List.mem_cons_self, by decide, by decide,
    by decide⟩
  · have held : some (⟨1, 0, .reading, .none⟩ : Task) = some t := h.held
    have queued := h.queued
    cases held
    cases queued
  · have held : some (task 1 (record 0x11 4 [])) = some t := h.held
    have queued := h.queued
    cases held
    cases queued
    decide

/-! ### Takes -/

/-- WORKED ARBITRATION RUN after one take and after three. -/
def afterOne : State := ran .take arbitration
def afterThree : State := runs [.take, .take, .take] arbitration

/-- Ring 1 alone can be taken from, and has used its run. -/
def alone : State := { busy with
  workRings := busy.workRings.set 0 none, pointer := 1, runCounter := 2 }

theorem witness_TakeClaimsARecord :
    (arbitration.pointer ≠ 0 ∧ Serves arbitration 0 1 0 ∧ (∃ w q, Eligible arbitration 0 w q) ∧
      arbitration.slots[(0 : SlotId)] = none ∧ ∀ j < (0 : SlotId), arbitration.slots[j] ≠ none) ∧
    (afterOne.pointer ≠ 0 ∧ Serves afterOne 1 1 1 ∧ (∃ w q, Eligible afterOne 1 w q) ∧
      afterOne.slots[(1 : SlotId)] = none ∧ ∀ j < (1 : SlotId), afterOne.slots[j] ≠ none) ∧
    (afterThree.pointer ≠ 0 ∧ Serves afterThree 2 2 1 ∧ (∃ w q, Eligible afterThree 2 w q) ∧
      afterThree.slots[(3 : SlotId)] = none ∧ ∀ j < (3 : SlotId), afterThree.slots[j] ≠ none) ∧
    (alone.pointer ≠ 0 ∧ Serves alone 1 1 1 ∧ (∃ w q, Eligible alone 1 w q) ∧ alone.slots[(0 : SlotId)] = none) ∧
    ∀ n, ¬CanTake State.reset n := by
  have can : ∀ (s : State) (n : WorkRingId), s.eligible n = true → CanTake s n := fun s n h => (canTake_iff s n).2 h
  have not : ∀ (s : State) (n : WorkRingId), s.eligible n = false → ¬CanTake s n := fun s n h c => by
    rw [(canTake_iff s n).1 c] at h
    cases h
  refine ⟨⟨by decide, .control (can _ _ (by decide)) rfl rfl rfl, can _ _ (by decide), by decide, by decide⟩,
    ⟨by decide, .again (not _ _ (by decide)) (can _ _ (by decide)) ⟨_, _, rfl, rfl, by decide⟩ rfl rfl rfl,
      can _ _ (by decide), by decide, by decide⟩,
    ⟨by decide, .search (not _ _ (by decide)) ?_ 1 (by decide) (by decide) (by decide) (can _ _ (by decide))
      (fun j m h1 h2 => by omega) rfl rfl, can _ _ (by decide), by decide, by decide⟩,
    ⟨by decide, .search (not _ _ (by decide)) ?_ 7 (by decide) (by decide) (by decide) (can _ _ (by decide)) ?_ rfl rfl,
      can _ _ (by decide), by decide⟩,
    fun n => not _ _ ((by decide : ∀ n : WorkRingId, State.reset.eligible n = false) n)⟩
  · rintro ⟨-, w, weight, hw, hk, hr⟩
    have e : some _ = some w := hw
    cases e
    cases hk
    revert hr
    decide
  · rintro ⟨-, w, weight, hw, hk, hr⟩
    have e : some _ = some w := hw
    cases e
    cases hk
    revert hr
    decide
  · intro j m h1 h2 h3 c
    have e : m = 1 := (by decide : ∀ m : WorkRingId, alone.eligible m = true → m = 1) m ((canTake_iff _ _).1 c)
    subst e
    have : ((1 : WorkRingId).val) = (alone.pointer.val - 1 + j) % 7 + 1 := h3
    have p : alone.pointer.val = 1 := by decide
    rw [p] at this
    omega

/-! ### Ends of transfers, results and drains -/

theorem witness_RecordReadEnds :
    (∃ t w x, reading.slots[(0 : SlotId)] = some t ∧ t.phase = .reading ∧ reading.workRings[t.ring] = some w ∧
      oldest reading (.recordRead 0 t.ring t.index) 0 = some x ∧ x.payload = .read 64 ∧
      x.failing = false ∧ t.ring ≠ 0) ∧
    (recordKind (fetched 7) = 0x10 ∧ recordSynth (fetched 7) = false ∧ recordByte9 (fetched 7) = 4 ∧
      recordByteA (fetched 7) = 3 ∧ (recordAddress (fetched 7)).toNat % 4 = 0) ∧ recordSynth (flat 7 1) = true :=
  ⟨⟨_, _, _, rfl, rfl, rfl, rfl, rfl, rfl, by decide⟩, by decide, by decide⟩

theorem witness_GridAndSnapshotEnds :
    (∃ t x, fetching.slots[(0 : SlotId)] = some t ∧ t.phase = .fetching (fetched 7) ∧
      oldest fetching (.gridRead 0) 0 = some x ∧ (∃ n, x.payload = .read n) ∧ x.failing = false ∧
      (List.replicate 48 (0 : Byte)).length = 4 * recordByte9 (fetched 7) * recordByteA (fetched 7)) ∧
    ∃ t r c i x data, (writing [.snapshot 0]).slots[(0 : SlotId)] = some t ∧ t.phase = .writing r c i ∧
      oldest (writing [.snapshot 0]) (.snapshot 0) 0 = some x ∧ x.payload = .write data ∧
      x.failing = false :=
  ⟨⟨_, _, rfl, rfl, rfl, ⟨_, rfl⟩, rfl, by decide⟩, _, _, _, _, _, _, rfl, rfl, rfl, rfl, rfl⟩

theorem witness_ResultWriteBegins :
    (∃ t r c i w q, (writing []).slots[(0 : SlotId)] = some t ∧ t.phase = .writing r c i ∧
      (writing []).workRings[t.ring] = some w ∧ (writing []).resultRings[w.resultRing] = some q ∧ 1 ≤ q.reserved ∧
      (∀ j : SlotId, ∀ u ∈ (writing []).slots[j], u.before t = false) ∧ (writing []).transfers = []) ∧
    ∃ x ∈ (writing [.snapshot 0]).transfers, x.kind = .snapshot 0 :=
  ⟨⟨_, _, _, _, _, _, rfl, rfl, rfl, rfl, by decide, by decide, rfl⟩, _, List.mem_cons_self, rfl⟩

/-- The completion of slot 0 in flight on result ring 1, another task in slot 3, and ring 1's uncounted records as given:
below and at the threshold of 4. -/
def written (unsignalled : Nat) : State := { writing [.completion 0 1 0] with
  slots := (writing []).slots.set 3 (some ⟨1, 1, .reading, .none⟩)
  workRings := busy.workRings.set 1 (some { workRing 16 1 (some 2) 5 2 with inFlight := 2 })
  resultRings := busy.resultRings.set 1 (some (resultRing 16 4 1 0 0 1 unsignalled)) }

theorem witness_CompletionWritten : ∀ n ∈ [2, 3],
    ∃ t q w x data, (written n).slots[(0 : SlotId)] = some t ∧ (written n).workRings[t.ring] = some w ∧
      (written n).resultRings[(1 : ResultRingId)] = some q ∧
      oldestResult (written n) 1 0 0 = some x ∧ x.kind = .completion 0 1 0 ∧
      x.payload = .write data ∧ x.failing = false ∧ (∃ j : SlotId, j ≠ 0 ∧ (written n).slots[j] ≠ none) ∧
      (∀ j : SlotId, ∀ u ∈ (written n).slots[j], u.draining = false) ∧ q.unsignalled = n := by
  intro n h
  rcases List.mem_cons.1 h with rfl | h
  · exact ⟨_, _, _, _, _, rfl, rfl, rfl, rfl, rfl, rfl, rfl, ⟨3, by decide, by decide⟩, by decide, rfl⟩
  · cases List.mem_singleton.1 h
    exact ⟨_, _, _, _, _, rfl, rfl, rfl, rfl, rfl, rfl, rfl, ⟨3, by decide, by decide⟩, by decide, rfl⟩

theorem witness_LastCompletionWritten : let s := { writing [.completion 0 1 0] with controller := .quiescing }
    ∃ t q w x data, s.slots[(0 : SlotId)] = some t ∧ s.workRings[t.ring] = some w ∧
      s.resultRings[(1 : ResultRingId)] = some q ∧
      oldestResult s 1 0 0 = some x ∧ x.kind = .completion 0 1 0 ∧
      x.payload = .write data ∧ x.failing = false ∧ (∀ j : SlotId, j ≠ 0 → s.slots[j] = none) ∧
      s.controller = .quiescing :=
  ⟨_, _, _, _, _, rfl, rfl, rfl, rfl, rfl, rfl, rfl, by decide, rfl⟩

/-- The NOTICE of station 3 in flight with the table as given. -/
def notified (slots : Vector (Option Task) 8) : State :=
  { ran (.noticeEmission 3) { fullRing with resultRings := busy.resultRings } with slots := slots }

theorem witness_NoticeWritten : ∀ slots ∈ [busy.slots, reading.slots],
    ∃ c q x data, (notified slots).stations[(3 : StationId)] = .opened c ∧
      (notified slots).resultRings[(1 : ResultRingId)] = some q ∧
      oldestResult (notified slots) 1 0 0 = some x ∧ x.kind = .notice 3 1 0 ∧
      x.payload = .write data ∧ x.failing = false ∧
      ∀ j : SlotId, ∀ u ∈ (notified slots).slots[j], u.draining = false := by
  intro slots h
  rcases List.mem_cons.1 h with rfl | h
  · exact ⟨_, _, _, _, rfl, rfl, rfl, rfl, rfl, rfl, by decide⟩
  · cases List.mem_singleton.1 h
    exact ⟨_, _, _, _, rfl, rfl, rfl, rfl, rfl, rfl, by decide⟩

/-- A result write in flight, ring 1 with tasks in flight as given, and a task in DRAIN_WAIT in slot 3. -/
def beside (kind : TransferKind) (d : Drain) (c : Context) (inFlight : Nat) : State := { writing [kind] with
  slots := (writing []).slots.set 3 (some ⟨0, 0, .drainWait (record 9 4 []) d, .none⟩)
  stations := busy.stations.set 4 c
  workRings := busy.workRings.set 1 (some { workRing 16 1 (some 2) 5 1 with inFlight := inFlight }) }

/-- The write named ends beside the one task in DRAIN_WAIT, and further premises. -/
def Beside (kind : TransferKind) (d : Drain) (c : Context) (inFlight : Nat) (more : Prop) : Prop :=
  let s := beside kind d c inFlight
  (∃ t u w q x data r, s.slots[(0 : SlotId)] = some t ∧ s.slots[(3 : SlotId)] = some u ∧ u.phase = .drainWait r d ∧
    s.workRings[t.ring] = some w ∧ w.inFlight = inFlight ∧ s.resultRings[(1 : ResultRingId)] = some q ∧
    oldestResult s 1 0 0 = some x ∧ x.kind = kind ∧ x.payload = .write data ∧ x.failing = false ∧
    s.stations[(4 : StationId)] = c) ∧
  (∀ i : SlotId, i ≠ 3 → ∀ v ∈ s.slots[i], v.draining = false) ∧ more

/-- The last recorded slot, or one of two, is written while a close waits; the only task of a ring, or one of two, while
its deletion waits; and the NOTICE of a station that is CLOSING, or OPEN, ends beside either drain, due or not. -/
theorem witness_NoDueDrainIsLeft : let notified : Station := { station with noticeInFlight := true }
    (∃ t, exec (.resultWriteDone 1 0) (beside (.completion 0 1 0) (.delete 1) (.opened station) 1) = .next t ∧
      t.workRings[(1 : WorkRingId)] = none) ∧
    Beside (.completion 0 1 0) (.close 4 [0]) (.closing station) 1 ([(0 : SlotId)].filter (· != 0) = []) ∧
    Beside (.completion 0 1 0) (.close 4 [0, 2]) (.closing station) 2 ([(0 : SlotId), 2].filter (· != 0) ≠ []) ∧
    Beside (.completion 0 1 0) (.close 4 [0]) (.closing notified) 1 (notified.noticeInFlight = true) ∧
    Beside (.completion 0 1 0) (.delete 1) (.opened station) 1 (1 - 1 = 0) ∧
    Beside (.completion 0 1 0) (.delete 1) (.opened station) 2 (2 - 1 ≠ 0) ∧
    Beside (.notice 4 1 0) (.close 4 []) (.closing notified) 1
      (without (beside (.notice 4 1 0) (.close 4 []) (.closing notified) 1) (.notice 4 1 0) 0 = []) ∧
    Beside (.notice 4 1 0) (.close 4 [0]) (.closing notified) 1 ([(0 : SlotId)] ≠ []) ∧
    Beside (.notice 4 1 0) (.delete 1) (.opened notified) 0 True ∧
    Beside (.notice 4 1 0) (.delete 1) (.opened notified) 1 ((1 : Nat) ≠ 0) := by
  refine ⟨⟨_, rfl, by decide⟩, ?_, ?_, ?_, ?_, ?_, ?_, ?_, ?_, ?_⟩ <;>
    exact ⟨⟨_, _, _, _, _, _, _, rfl, rfl, rfl, rfl, rfl, rfl, rfl, rfl, rfl, rfl, rfl⟩, by decide, by decide⟩

theorem witness_DrainsEnd :
    (∃ t r c, (draining 9 (.close 4 []) (.closing station)).slots[(0 : SlotId)] = some t ∧
      t.phase = .drainWait r (.close 4 []) ∧
      (draining 9 (.close 4 []) (.closing station)).stations[(4 : StationId)] = .closing c ∧ c.noticeInFlight = false) ∧
    (∃ t r c, (draining 9 (.close 4 [2]) (.closing station)).slots[(0 : SlotId)] = some t ∧
      t.phase = .drainWait r (.close 4 [2]) ∧
      (draining 9 (.close 4 [2]) (.closing station)).stations[(4 : StationId)] = .closing c) ∧
    (∃ t r w, (draining 3 (.delete 1) .free).slots[(0 : SlotId)] = some t ∧ t.phase = .drainWait r (.delete 1) ∧
      (draining 3 (.delete 1) .free).workRings[(1 : WorkRingId)] = some w ∧ w.inFlight = 0) ∧
    let s := { draining 3 (.delete 1) .free with workRings := reading.workRings }
    ∃ t r w, s.slots[(0 : SlotId)] = some t ∧ t.phase = .drainWait r (.delete 1) ∧
      s.workRings[(1 : WorkRingId)] = some w ∧ w.inFlight ≠ 0 :=
  ⟨⟨_, _, _, rfl, rfl, rfl, rfl⟩, ⟨_, _, _, rfl, rfl, rfl⟩, ⟨_, _, _, rfl, rfl, rfl, rfl⟩, _, _, _, rfl, rfl, rfl,
    by decide⟩

theorem witness_ResultAndWriteBackEnds :
    (Halts (writing [.completion 0 1 0]) ∧
      ∃ x, oldestResult (writing [.completion 0 1 0]) 1 0 0 = some x) ∧
    (∃ x data, oldest (busy.writeBack (.taken 1) 1) (.writeBack (.taken 1)) 0 = some x ∧
      x.payload = .write data ∧ Halts (busy.writeBack (.taken 1) 1) ∧ x.failing = false) ∧
    ∃ x data, oldest halted (.writeBack (.taken 1)) 0 = some x ∧ x.payload = .write data ∧
      halted.controller = .halted :=
  ⟨⟨by decide, _, rfl⟩, ⟨_, _, rfl, rfl, by decide, rfl⟩, _, _, rfl, rfl, rfl⟩

/-- Two bytes across the top of the address space. -/
theorem witness_WriteBytesPlacesThem : [1#8, 2#8].length ≤ 2 ^ 64 ∧ 1 < [1#8, 2#8].length ∧
    ∀ i, i < [1#8, 2#8].length → (1 : Nat) ≠ (0xFFFFFFFFFFFFFFFF#64 + BitVec.ofNat 64 i).toNat := by decide

/-! ### Ring commands and the scheduler -/

theorem witness_SchedulerAnswers :
    Meets busy 1 (record 1 0 []) 0x01 ((1 : WorkRingId) ≠ 0) ∧ Meets busy 0 (record 1 0 []) 0x01 True ∧
    Meets busy 1 (record 6 0 []) 0x06 (recordKind (record 6 0 []) ∉ Kind.known) ∧
    let s := { busy with slots := busy.slots.set 0 (some ⟨1, 9, .queued none, .none⟩) }
    ∃ t, s.slots[(0 : SlotId)] = some t ∧ t.phase = .queued none ∧
      ∀ j : SlotId, ∀ u ∈ s.slots[j], u.before t → u.executed :=
  ⟨meets (by decide), meets (by decide), meets (by decide), _, rfl, rfl, by decide⟩

def createWith (n base size result weight : Nat) : Block64 :=
  record 2 n [(0x09, 1, result), (0x0A, 1, weight), (0x0C, 2, size), (0x10, 8, base)]

abbrev CreateFields (r : Block64) : Prop :=
  (1 ≤ recordByte8 r ∧ recordByte8 r ≤ 7) ∧ (recordAddress r).toNat % 64 = 0 ∧ RingSize (recordSize r) ∧
    recordByte9 r ≤ 3 ∧ 1 ≤ recordByteA r ∧ recordByteA r ≤ 8

theorem witness_CreateWorkRing :
    Meets busy 1 (createWith 2 64 16 1 3) 0x02 ((1 : WorkRingId) ≠ 0) ∧
    Meets busy 0 (createWith 8 64 16 1 3) 0x02 (¬CreateFields (createWith 8 64 16 1 3)) ∧
    Meets busy 0 (createWith 0 64 16 1 3) 0x02 (¬CreateFields (createWith 0 64 16 1 3)) ∧
    Meets busy 0 (createWith 2 32 16 1 3) 0x02 (¬CreateFields (createWith 2 32 16 1 3)) ∧
    Meets busy 0 (createWith 2 64 2048 1 3) 0x02 (¬CreateFields (createWith 2 64 2048 1 3)) ∧
    Meets busy 0 (createWith 2 64 16 4 3) 0x02 (¬CreateFields (createWith 2 64 16 4 3)) ∧
    Meets busy 0 (createWith 2 64 16 1 9) 0x02 (¬CreateFields (createWith 2 64 16 1 9)) ∧
    Meets busy 0 (createWith 2 64 16 3 3) 0x02 (CreateFields (createWith 2 64 16 3 3) ∧
      recordByte8 (createWith 2 64 16 3 3) = (2 : WorkRingId).val ∧
      recordByte9 (createWith 2 64 16 3 3) = (3 : ResultRingId).val ∧ busy.resultRings[(3 : ResultRingId)] = none) ∧
    Meets busy 0 (createWith 1 64 8 0 1) 0x02 (CreateFields (createWith 1 64 8 0 1) ∧
      busy.resultRings[(0 : ResultRingId)] ≠ none ∧ busy.workRings[(1 : WorkRingId)] ≠ none) ∧
    Meets busy 0 (createWith 7 64 1024 1 8) 0x02 (CreateFields (createWith 7 64 1024 1 8) ∧
      busy.resultRings[(1 : ResultRingId)] ≠ none ∧ busy.workRings[(7 : WorkRingId)] = none) :=
  ⟨meets (by decide), meets (by decide), meets (by decide), meets (by decide), meets (by decide), meets (by decide),
    meets (by decide), meets (by decide), meets (by decide), meets (by decide)⟩

theorem witness_DeleteWorkRing :
    Meets busy 1 (record 3 1 []) 0x03 ((1 : WorkRingId) ≠ 0) ∧
    Meets busy 0 (record 3 0 []) 0x03 (recordByte8 (record 3 0 []) = 0) ∧
    Meets busy 0 (record 3 8 []) 0x03 (8 ≤ recordByte8 (record 3 8 [])) ∧
    Meets busy 0 (record 3 7 []) 0x03 (recordByte8 (record 3 7 []) = (7 : WorkRingId).val ∧
      busy.workRings[(7 : WorkRingId)] = none) ∧
    Meets busy 0 (record 3 1 []) 0x03 (busy.workRings[(1 : WorkRingId)] ≠ none ∧
      ∃ id : StationId, ∃ c ∈ (busy.stations[id]).station, c.homeRing = 1) ∧
    Meets (with4 .free) 0 (record 3 1 []) 0x03 ((∃ w ∈ (with4 .free).workRings[(1 : WorkRingId)], w.inFlight = 0) ∧
      ∀ id : StationId, ∀ c ∈ ((with4 .free).stations[id]).station, c.homeRing ≠ 1) ∧
    Meets { with4 .free with workRings := reading.workRings } 0 (record 3 1 []) 0x03
      (∃ w ∈ reading.workRings[(1 : WorkRingId)], w.inFlight ≠ 0) :=
  ⟨meets (by decide), meets (by decide), meets (by decide), meets (by decide),
    meets ⟨by decide, by decide, 4, station, rfl, rfl⟩, meets ⟨by decide, ⟨_, rfl, rfl⟩, by decide⟩,
    meets ⟨by decide, _, rfl, by decide⟩⟩

def createResultWith (n base size threshold : Nat) : Block64 :=
  record 4 n [(0x0C, 2, size), (0x0E, 2, threshold), (0x10, 8, base)]

abbrev CreateResultFields (r : Block64) : Prop :=
  (1 ≤ recordByte8 r ∧ recordByte8 r ≤ 3) ∧ (recordAddress r).toNat % 32 = 0 ∧ RingSize (recordSize r) ∧
    1 ≤ recordThreshold r ∧ recordThreshold r ≤ recordSize r

/-- `busy` with result ring 3 present, bound to no ring and named by no station. -/
def spare : State := { busy with resultRings := busy.resultRings.set 3 (some (resultRing 8 1 9 8 5 0 0)) }

theorem witness_ResultRingCommands :
    (Meets busy 1 (createResultWith 2 32 8 1) 0x04 ((1 : WorkRingId) ≠ 0) ∧
    Meets busy 0 (createResultWith 4 32 8 1) 0x04 (¬CreateResultFields (createResultWith 4 32 8 1)) ∧
    Meets busy 0 (createResultWith 2 16 8 1) 0x04 (¬CreateResultFields (createResultWith 2 16 8 1)) ∧
    Meets busy 0 (createResultWith 2 32 8 9) 0x04 (¬CreateResultFields (createResultWith 2 32 8 9)) ∧
    Meets busy 0 (createResultWith 1 32 8 8) 0x04 (CreateResultFields (createResultWith 1 32 8 8) ∧
      busy.resultRings[(1 : ResultRingId)] ≠ none) ∧
    Meets busy 0 (createResultWith 3 32 1024 1024) 0x04 (CreateResultFields (createResultWith 3 32 1024 1024) ∧
      busy.resultRings[(3 : ResultRingId)] = none)) ∧
    Meets busy 1 (record 5 1 []) 0x05 ((1 : WorkRingId) ≠ 0) ∧
    Meets busy 0 (record 5 0 []) 0x05 (recordByte8 (record 5 0 []) = 0) ∧
    Meets busy 0 (record 5 4 []) 0x05 (4 ≤ recordByte8 (record 5 4 [])) ∧
    Meets busy 0 (record 5 3 []) 0x05 (busy.resultRings[(3 : ResultRingId)] = none) ∧
    Meets busy 0 (record 5 1 []) 0x05 ((∃ m : WorkRingId, ∃ w ∈ busy.workRings[m], w.resultRing = 1) ∧
      ∃ id : StationId, ∃ c ∈ (busy.stations[id]).station, c.noticeRing = 1) ∧
    Meets spare 0 (record 5 3 []) 0x05 (spare.resultRings[(3 : ResultRingId)] ≠ none ∧
      (∀ m : WorkRingId, ∀ w ∈ spare.workRings[m], w.resultRing ≠ 3) ∧
      ∀ id : StationId, ∀ c ∈ (spare.stations[id]).station, c.noticeRing ≠ 3) :=
  ⟨⟨meets (by decide), meets (by decide), meets (by decide), meets (by decide), meets (by decide), meets (by decide)⟩,
    meets (by decide), meets (by decide), meets (by decide), meets (by decide),
    meets ⟨by decide, ⟨1, _, rfl, rfl⟩, 4, station, rfl, rfl⟩, meets (by decide)⟩

/-! ### Stations -/

def openWith (id home notice set lines delay i g l : Nat) : Block64 :=
  record 8 id [(0x09, 1, home), (0x0A, 1, notice), (0x0B, 1, set), (0x0C, 2, lines), (0x0E, 1, delay), (0x10, 2, i),
    (0x12, 2, g), (0x14, 2, l)]

abbrev OpenFields (r : Block64) : Prop :=
  recordByte8 r < 32 ∧ (1 ≤ recordByte9 r ∧ recordByte9 r ≤ 7) ∧ recordByteA r < 4 ∧ 16 ≤ recordSize r ∧
    (1 ≤ recordDelay r ∧ recordDelay r ≤ 4) ∧ ActuatorsInRange r ∧ (recordByteB r < 8 ∨ recordByteB r = 0xFF)

theorem witness_OpenStation :
    (Meets busy 1 openRecord 0x08 ((1 : WorkRingId) ≠ 0) ∧
    (∀ r ∈ [openWith 32 1 1 255 1000 1 1 16 1, openWith 5 8 1 255 1000 1 1 16 1, openWith 5 1 4 255 1000 1 1 16 1,
        openWith 5 1 1 8 1000 1 1 16 1, openWith 5 1 1 255 15 1 1 16 1, openWith 5 1 1 255 1000 5 1 16 1,
        openWith 5 1 1 255 1000 1 0 16 1, openWith 5 1 1 255 1000 1 1 1024 1, openWith 5 1 1 255 1000 1 1 16 257],
      Meets busy 0 r 0x08 (¬OpenFields r)) ∧
    Meets busy 0 (openWith 31 7 1 255 16 4 1 16 1) 0x08 (OpenFields (openWith 31 7 1 255 16 4 1 16 1) ∧
      busy.workRings[(7 : WorkRingId)] = none) ∧
    Meets busy 0 (openWith 31 1 3 255 16 4 1 16 1) 0x08 (OpenFields (openWith 31 1 3 255 16 4 1 16 1) ∧
      busy.resultRings[(3 : ResultRingId)] = none) ∧
    Meets busy 0 (openWith 31 1 1 7 16 4 1 16 1) 0x08 (OpenFields (openWith 31 1 1 7 16 4 1 16 1) ∧
      (busy.sets[(7 : SetId)]).state ≠ .opened) ∧
    Meets (withSet (.opened 1 []) busy) 0 (openWith 31 1 1 0 16 4 1 16 1) 0x08
      (((withSet (.opened 1 []) busy).sets[(0 : SetId)]).state = .opened ∧
        ((withSet (.opened 1 []) busy).sets[(0 : SetId)]).owner ≠ some 0) ∧
    Meets busy 0 (openWith 4 1 1 255 16 4 65535 1023 256) 0x08 (OpenFields (openWith 4 1 1 255 16 4 65535 1023 256) ∧
      busy.stations[(4 : StationId)] ≠ .free)) ∧
    Meets busy 0 (openWith 31 1 1 255 16 4 1 16 1) 0x08 (OpenFields (openWith 31 1 1 255 16 4 1 16 1) ∧
      busy.stations[(31 : StationId)] = .free ∧ recordByteB (openWith 31 1 1 255 16 4 1 16 1) = 0xFF ∧
      (∃ w ∈ busy.workRings[(1 : WorkRingId)], w.state = .active) ∧ busy.resultRings[(1 : ResultRingId)] ≠ none) ∧
    (Meets (withSet (.opened 0 [(.innerLo, 4000)]) busy) 0 (openWith 31 1 1 0 16 4 1 16 1) 0x08
      ((withSet (.opened 0 [(.innerLo, 4000)]) busy).sets[(0 : SetId)] = .opened 0 [(.innerLo, 4000)]) ∧
      ¬ConsistentProfile (Profile.defaults.merge [(.innerLo, 4000)])) ∧
    ConsistentProfile (Profile.defaults.merge []) := by
  refine ⟨⟨meets (by decide), ?_, meets (by decide), meets (by decide), meets (by decide), meets (by decide),
    meets (by decide)⟩, meets ⟨by decide, by decide, by decide, by decide, ⟨_, rfl, rfl⟩, by decide⟩, ⟨meets (by decide),
    fun h => absurd h.r2 (by decide)⟩, by constructor <;> decide⟩
  intro r h
  simp only [List.mem_cons, List.not_mem_nil, or_false] at h
  rcases h with rfl | rfl | rfl | rfl | rfl | rfl | rfl | rfl | rfl <;> exact meets (by decide)

theorem witness_CloseStation :
    Meets busy 1 (record 9 4 []) 0x09 ((1 : WorkRingId) ≠ 0) ∧
    Meets busy 0 (record 9 32 []) 0x09 (32 ≤ recordByte8 (record 9 32 [])) ∧
    Meets busy 0 (record 9 31 []) 0x09 (recordByte8 (record 9 31 []) = (31 : StationId).val ∧
      busy.stations[(31 : StationId)] = .free) ∧
    Meets (with4 (.closing station)) 0 (record 9 4 []) 0x09 ((with4 (.closing station)).stations[(4 : StationId)] =
      .closing station) ∧
    Meets busy 0 (record 9 4 []) 0x09 (busy.stations[(4 : StationId)] = .opened station ∧
      station.noticeInFlight = false) :=
  ⟨meets (by decide), meets (by decide), meets (by decide), meets (by decide), meets (by decide)⟩

theorem witness_ReadStation :
    Meets busy 1 (record 0x0A 4 []) 0x0A ((1 : WorkRingId) ≠ 0) ∧
    Meets busy 0 (record 0x0A 32 []) 0x0A (32 ≤ recordByte8 (record 0x0A 32 [])) ∧
    Meets busy 0 (record 0x0A 4 [(0x10, 8, 0x20)]) 0x0A ((recordAddress (record 0x0A 4 [(0x10, 8, 0x20)])).toNat % 64 ≠ 0) ∧
    Meets busy 0 (record 0x0A 31 [(0x10, 8, 0x40)]) 0x0A (busy.stations[(31 : StationId)] = .free ∧
      (recordAddress (record 0x0A 31 [(0x10, 8, 0x40)])).toNat % 64 = 0) ∧
    Meets (with4 (.closing station)) 0 (record 0x0A 4 []) 0x0A
      (((with4 (.closing station)).stations[(4 : StationId)]).station = some station) ∧
    station.older.length ≤ 4 ∧ station.armed.length ≤ 2 :=
  ⟨meets (by decide), meets (by decide), meets (by decide), meets (by decide), meets (by decide), by decide, by decide⟩

theorem witness_HomeCommandChecks : homeKindOf (.freeze 0) = some (0, 0x11) ∧
    homeKindOf (.setActuators 0) = some (0, 0x14) ∧ homeKindOf (.measure 0) = some (0, 0x10) ∧
    Meets busy 0 (record 0x11 4 []) 0x11 True ∧
    Meets busy 1 (record 0x11 32 []) 0x11 ((1 : WorkRingId) ≠ 0 ∧ 32 ≤ recordByte8 (record 0x11 32 [])) ∧
    Meets busy 1 (actuators 0 16 1) 0x14 (¬FieldsInRange 0x14 (actuators 0 16 1)) ∧
    Meets busy 1 (actuators 1 1024 1) 0x14 (¬FieldsInRange 0x14 (actuators 1 1024 1)) ∧
    Meets busy 1 (flat 1 4096) 0x10 (¬FieldsInRange 0x10 (flat 1 4096)) ∧
    Meets busy 1 (record 0x11 31 []) 0x11 (recordByte8 (record 0x11 31 []) = (31 : StationId).val ∧
      FieldsInRange 0x11 (record 0x11 31 []) ∧ busy.stations[(31 : StationId)] = .free) ∧
    Meets (with4 (.opened { station with homeRing := 2 })) 1 (flat 1 4095) 0x10 (FieldsInRange 0x10 (flat 1 4095) ∧
      ((with4 (.opened { station with homeRing := 2 })).stations[(4 : StationId)]).station =
        some { station with homeRing := 2 }) ∧
    Meets (with4 (.closing station)) 1 (actuators 65535 1023 256) 0x14 (FieldsInRange 0x14 (actuators 65535 1023 256) ∧
      ((with4 (.closing station)).stations[(4 : StationId)]).station = some station) :=
  ⟨rfl, rfl, rfl, meets (by decide), meets (by decide), meets (by decide), meets (by decide), meets (by decide),
    meets (by decide), meets (by decide), meets (by decide)⟩

theorem queued_obeys {c : Station} {r : Block64} (h : recordByte8 r = (4 : StationId).val) (hc : c.homeRing = 1) :
    Obeys (queued (with4 (.opened c)) 1 r) (task 1 r) r 4 c :=
  ⟨by show (1 : WorkRingId) ≠ 0; decide, h, rfl, hc⟩

/-- A record about station 4 from ring 1 that station 4, OPEN as named, obeys. -/
def Heard (c : Station) (r : Block64) (kind : Nat) : Prop :=
  Runs (queued (with4 (.opened c)) 1 r) 0 (task 1 r) r kind ∧ Obeys (queued (with4 (.opened c)) 1 r) (task 1 r) r 4 c

theorem heard {c : Station} {r : Block64} {kind : Nat}
    (h : recordKind r = kind ∧ recordByte8 r = (4 : StationId).val ∧ c.homeRing = 1) : Heard c r kind :=
  ⟨queued_runs h.1, queued_obeys h.2.1 h.2.2⟩

theorem witness_FreezeReseekAckNotice : Heard station (record 0x11 4 []) 0x11 ∧ Heard station (record 0x13 4 []) 0x13 ∧
    Heard station (record 0x15 4 []) 0x15 := ⟨heard (by decide), heard (by decide), heard (by decide)⟩

theorem witness_Thaw : Heard { station with loop := .frozen } (record 0x12 4 []) 0x12 ∧
    Heard station (record 0x12 4 []) 0x12 ∧ station.loop ≠ .frozen :=
  ⟨heard (by decide), heard (by decide), by decide⟩

theorem witness_SetActuators : Heard station (actuators 65535 1023 256) 0x14 ∧
    ActuatorsInRange (actuators 65535 1023 256) ∧ ActuatorsInRange (actuators 1 16 1) :=
  ⟨heard (by decide), by decide, by decide⟩

/-! ### MEASURE -/

/-- A MEASURE of station 4 that has passed stage 1, and further premises. -/
def Measured (c : Station) (r : Block64) (grid : GridStatus) (more : Prop) : Prop :=
  let t : Task := ⟨1, 0, .queued (some r), grid⟩
  Measures { with4 (.opened c) with slots := (Vector.replicate 8 none).set 0 (some t) } 0 t r 4 c ∧ more

theorem measured {c : Station} {r : Block64} {grid : GridStatus} {more : Prop}
    (h : (recordKind r = 0x10 ∧ recordByte8 r = (4 : StationId).val ∧ c.homeRing = 1 ∧ MeasureInRange r) ∧ more) :
    Measured c r grid more := by
  refine ⟨⟨⟨rfl, rfl, ?_, h.1.1⟩, ⟨by show (1 : WorkRingId) ≠ 0; decide, h.1.2.1, rfl, h.1.2.2.1⟩, h.1.2.2.2⟩, h.2⟩
  intro j u hu hb
  have e : ((Vector.replicate 8 none).set (0 : SlotId) (some (⟨1, 0, .queued (some r), grid⟩ : Task)))[j] = some u := hu
  rw [get_set] at e
  split at e
  · cases e
    simp [Task.before] at hb
  · simp at e

/-- The station after stages 4 and 5. -/
def afterFive (f : Frame) (c : Station) : Station :=
  (armedStage f (gapStage f c).station busy.sets).1.raiseAll (gapStage f c).raises

/-- The mean that a synthetic grid meters to. -/
def flatMean (c : Station) (frame level : Nat) : Option Nat :=
  (meter (afterFive (recordFrame (flat frame level)) c).profile 1 (synthesize false level 0 1 1)).mean

/-- Station 4 with the base entry in force and a newer entry at frame 102. -/
def late (policy : Inflight) : Station := { station with
  profile := { Profile.defaults with inflight := policy }
  lastFrame := some 100
  older := [station.newest]
  newest := ⟨some 102, 1000, 16, 64, 1024000, 1⟩ }

theorem witness_MeasureEndsEarly :
    Measured { station with lastFrame := some 100 } (flat 100 600) .none
      (frameAfter (recordFrame (flat 100 600)) 100 = false) ∧
    Measured station (fetched 7) .failed (recordSynth (fetched 7) = false) ∧
    Measured { station with profile := { Profile.defaults with colLo := 5 } } (flat 7 600) .none
      (flatMean { station with profile := { Profile.defaults with colLo := 5 } } 7 600 = none) ∧
    Measured (late .wait) (flat 101 600) .none (flatMean (late .wait) 101 600 = some 600 ∧
      frameAfter (recordFrame (flat 101 600)) 100 = true ∧
      trimOlder (recordFrame (flat 101 600)) (late .wait).older (late .wait).newest = [station.newest]) ∧
    Measured { late .compensate with loop := .frozen } (flat 101 600) .none
      (flatMean { late .compensate with loop := .frozen } 101 600 = some 600 ∧
        min 4095 (600 * 1024000 / 512000) = 1200) ∧
    Measured { station with loop := .frozen } (flat 7 600) .none
      (flatMean { station with loop := .frozen } 7 600 = some 600) :=
  ⟨measured (by decide), measured (by decide), measured (by decide), measured (by decide), measured (by decide),
    measured (by decide)⟩

/-- Station 4 at the greatest and at the least settings of the default profile. -/
def brightest : Station := { station with newest := ⟨some 1, 1000, 256, 256, 65536000, 1⟩ }
def darkest : Station := { station with newest := ⟨some 1, 1, 16, 1, 16, 1⟩ }

/-- The held grid of WORKED METERING EXAMPLE, under its profile. -/
def vetoed (c : Station) : Station := { c with profile := meteringProfile }

theorem witness_MeasureMovesTheLoop :
    Measured station (flat 7 1700) .none (flatMean station 7 1700 = some 1700 ∧ station.profile.innerLo ≤ 1700) ∧
    Measured { station with loop := .settled } (flat 7 2100) .none
      (flatMean { station with loop := .settled } 7 2100 = some 2100 ∧ 2100 ≤ station.profile.outerHi) ∧
    Measured station (flat 7 1699) .none (flatMean station 7 1699 = some 1699 ∧ 1699 < station.profile.innerLo ∧
      decompose station.profile 1000 (stepProduct station.profile 512000 1699 true) ≠ ⟨500, 16, 64⟩) ∧
    Measured station (flat 7 1901) .none (flatMean station 7 1901 = some 1901 ∧ station.profile.innerHi < 1901) ∧
    Measured brightest (flat 7 1200) .none (flatMean brightest 7 1200 = some 1200 ∧
      decompose station.profile 1000 (stepProduct station.profile 65536000 1200 true) = ⟨1000, 256, 256⟩) ∧
    Measured darkest (flat 7 3000) .none (flatMean darkest 7 3000 = some 3000 ∧
      decompose station.profile 1000 (stepProduct station.profile 16 3000 false) = ⟨1, 16, 1⟩) ∧
    Measured (vetoed station) (fetched 7) (.held meteringCells)
      ((meter meteringProfile 4 meteringCells).mean = some 2162 ∧ (meter meteringProfile 4 meteringCells).veto = true ∧
        (afterFive 7 (vetoed station)).profile = meteringProfile ∧
        decompose meteringProfile 1000 (512000 * 3 / 4) ≠ ⟨500, 16, 64⟩) ∧
    Measured (vetoed darkest) (fetched 7) (.held meteringCells)
      (decompose meteringProfile 1000 (16 * 3 / 4) = ⟨1, 16, 1⟩) :=
  ⟨measured (by decide), measured (by decide), measured (by decide), measured (by decide), measured (by decide),
    measured (by decide), measured (by decide), measured (by decide)⟩

/-! ### Staging -/

/-- Every staging set OPEN. -/
def allOpen : State := { busy with sets := Vector.replicate 8 (.opened 1 []) }

/-- Set 0 ARMED for station 4. -/
def armedSet : State := withSet (.armed 1 [] 4 7) (with4 (.opened { station with armed := [0] }))

theorem witness_StageOpenAndDiscard :
    Meets busy 1 (record 0x18 0 []) 0x18 (busy.sets[(0 : SetId)] = .free) ∧
    Meets { allOpen with sets := allOpen.sets.set 7 .free } 1 (record 0x18 0 []) 0x18
      (∀ j < (7 : SetId), (allOpen.sets.set 7 .free)[j] ≠ .free) ∧
    Meets allOpen 1 (record 0x18 0 []) 0x18 (∀ i : SetId, allOpen.sets[i] ≠ .free) ∧
    Meets busy 1 (record 0x1B 8 []) 0x1B (8 ≤ recordByte8 (record 0x1B 8 [])) ∧
    Meets busy 1 (record 0x1B 7 []) 0x1B (recordByte8 (record 0x1B 7 []) = (7 : SetId).val ∧
      busy.sets[(7 : SetId)] = .free) ∧
    Meets allOpen 2 (record 0x1B 7 []) 0x1B ((allOpen.sets[(7 : SetId)]).owner ≠ some 2) ∧
    Meets allOpen 1 (record 0x1B 7 []) 0x1B (allOpen.sets[(7 : SetId)] = .opened 1 []) ∧
    Meets armedSet 1 (record 0x1B 0 []) 0x1B (armedSet.sets[(0 : SetId)] = .armed 1 [] 4 7 ∧
      armedSet.stations[(4 : StationId)] = .opened { station with armed := [0] }) ∧
    Meets { armedSet with stations := busy.stations.set 4 (.closing station) } 1 (record 0x1B 0 []) 0x1B
      (({ armedSet with stations := busy.stations.set 4 (.closing station) } : State).stations[(4 : StationId)] =
        .closing station) :=
  ⟨meets (by decide), meets (by decide), meets (by decide), meets (by decide), meets (by decide), meets (by decide),
    meets (by decide), meets (by decide), meets (by decide)⟩

/-- Seven sets of 24 items and set 0 with `n`, so that the pool holds 21 blocks and those of set 0. -/
def crowded (n : Nat) : State := { busy with
  sets := (Vector.replicate 8 (.opened 1 (List.replicate 24 (.innerLo, 1)))).set 0
    (.opened 1 (List.replicate n (.outerLo, 1))) }

theorem witness_StagePut :
    Meets busy 1 (record 0x19 8 [(0x09, 1, 1)]) 0x19 (8 ≤ recordByte8 (record 0x19 8 [(0x09, 1, 1)])) ∧
    Meets busy 1 (record 0x19 0 [(0x09, 1, 0)]) 0x19 (recordByte9 (record 0x19 0 [(0x09, 1, 0)]) = 0) ∧
    Meets busy 1 (record 0x19 0 [(0x09, 1, 7)]) 0x19 (7 ≤ recordByte9 (record 0x19 0 [(0x09, 1, 7)])) ∧
    Meets busy 1 (record 0x19 0 [(0x09, 1, 1), (0x10, 1, 1), (0x14, 4, 4096)]) 0x19
      (recordItem (record 0x19 0 [(0x09, 1, 1), (0x10, 1, 1), (0x14, 4, 4096)]) 0 = none) ∧
    Meets busy 1 putRecord 0x19 ((busy.sets[(0 : SetId)]).state ≠ .opened ∧ recordByte9 putRecord = 4 ∧
      ∀ j < recordByte9 putRecord, recordItem putRecord j =
        [(Field.innerLo, 2000#32), (.innerHi, 2200#32), (.outerHi, 2400#32), (.innerLo, 2050#32)][j]?) ∧
    Meets allOpen 2 putRecord 0x19 ((allOpen.sets[(0 : SetId)]).owner ≠ some 2) ∧
    Meets (crowded 24) 1 putRecord 0x19 (freeBlocks (crowded 24).sets = 0) ∧
    Meets (crowded 8) 1 putRecord 0x19 (freeBlocks (crowded 8).sets = 2) :=
  ⟨meets (by decide), meets (by decide), meets (by decide), meets (by decide), meets (by decide), meets (by decide),
    meets (by decide +kernel), meets (by decide +kernel)⟩

theorem witness_PutKeepsTheFieldMap :
    (([(.innerLo, 1), (.outerHi, 2)] : List Item).map (·.1)).Nodup ∧
    (∀ it ∈ ([(.innerLo, 4095), (.damp, 1), (.noticeMask, 0x1FF)] : List Item),
      it.1.range.1 ≤ it.2.toNat ∧ it.2.toNat ≤ it.1.range.2) ∧
    0 ∉ catalogue.map CatalogueRow.id ∧ 0x36 ∉ catalogue.map CatalogueRow.id ∧
    (∀ f, station.profile.value f = Profile.defaults.value f) :=
  ⟨by decide, by decide, by decide, by decide, fun _ => rfl⟩

/-- Relation 5 fails first when 5 and 9 do. -/
theorem test_failingRelation :
    ({ Profile.defaults with rushHi := 2099, rowLo := 8 } : Profile).failingRelation = 5 := by decide

/-- Set 1 OPEN for ring 1, and station 4 with the armed list named. -/
def commits (armed : List SetId) : State := { with4 (.opened { station with armed := armed }) with
  sets := (((Vector.replicate 8 .free).set 0 (.armed 1 [] 4 1010)).set 1 (.opened 1 [])).set 2 (.armed 1 [] 4 1000) }

theorem witness_StageCommit :
    Meets busy 1 (commitRecord 8 0 0) 0x1A (8 ≤ recordByte8 (commitRecord 8 0 0)) ∧
    Meets busy 1 (commitRecord 0 2 0) 0x1A (2 ≤ recordByteA (commitRecord 0 2 0)) ∧
    Meets busy 1 (record 0x1A 0 [(0x09, 1, 32)]) 0x1A (32 ≤ recordByte9 (record 0x1A 0 [(0x09, 1, 32)])) ∧
    Meets busy 1 (commitRecord 7 1 0) 0x1A ((busy.sets[(7 : SetId)]).state ≠ .opened) ∧
    Meets allOpen 2 (commitRecord 0 1 0) 0x1A ((allOpen.sets[(0 : SetId)]).owner ≠ some 2) ∧
    Meets (withSet (.opened 1 []) (with4 .free)) 1 (commitRecord 0 1 0) 0x1A
      ((withSet (.opened 1 []) (with4 .free)).stations[(4 : StationId)] = .free) ∧
    Meets { withSet (.opened 2 []) busy with workRings := busy.workRings.set 2 busy.workRings[1] } 2 (commitRecord 0 1 0)
      0x1A (station.homeRing ≠ 2) ∧
    Meets (withSet (.opened 1 []) (with4 (.closing station))) 1 (commitRecord 0 1 0) 0x1A
      (((with4 (.closing station)).stations[(4 : StationId)]).state = .closing) ∧
    (Meets (withSet (.opened 1 [(.innerLo, 4000)]) busy) 1 (commitRecord 0 0 0) 0x1A
      (recordByteA (commitRecord 0 0 0) = 0) ∧ ¬ConsistentProfile (station.profile.merge [(.innerLo, 4000)])) ∧
    (Meets (commits []) 1 (commitRecord 1 0 0) 0x1A ((commits []).sets[(1 : SetId)] = .opened 1 []) ∧
      ConsistentProfile (station.profile.merge [])) ∧
    Meets (commits [2, 0]) 1 (commitRecord 1 1 1005) 0x1A (recordByteA (commitRecord 1 1 1005) = 1) ∧
    Meets (commits [0]) 1 (commitRecord 1 1 1010) 0x1A
      (((commits [0]).sets[(0 : SetId)]).frame = recordFrame (commitRecord 1 1 1010)) ∧
    Meets (commits [0]) 1 (commitRecord 1 1 1009) 0x1A (frameAfter 1010 (recordFrame (commitRecord 1 1 1009)) = true) ∧
    Meets (commits [0]) 1 (commitRecord 1 1 1011) 0x1A (frameAfter 1010 (recordFrame (commitRecord 1 1 1011)) = false) :=
  ⟨meets (by decide), meets (by decide), meets (by decide), meets (by decide), meets (by decide), meets (by decide),
    meets (by decide), meets (by decide), ⟨meets (by decide), fun h => absurd h.r2 (by decide)⟩,
    ⟨meets (by decide), by constructor <;> decide⟩, meets (by decide), meets (by decide), meets (by decide),
    meets (by decide)⟩

/-! ### Notices and the arithmetic -/

theorem witness_NoticeEmission :
    (let s := { fullRing with resultRings := busy.resultRings.set 1 (some (resultRing 8 4 22 22 16 1 2)) }
     ∃ c q, s.stations[(3 : StationId)] = .opened c ∧ s.resultRings[c.noticeRing] = some q ∧ Waiting c ∧
       (q.placed - q.released).toNat + q.reserved < q.size ∧ s.controller = .running) ∧
    ∃ c, fullRing.stations[(3 : StationId)] = .opened c ∧ ∀ q, fullRing.resultRings[c.noticeRing] = some q →
      q.size ≤ (q.placed - q.released).toNat + q.reserved :=
  ⟨⟨_, _, rfl, rfl, by decide, by decide, rfl⟩, _, rfl, fun q h =>
    (by decide : ∀ q ∈ fullRing.resultRings[(1 : ResultRingId)], q.size ≤ (q.placed - q.released).toNat + q.reserved) q h⟩

theorem witness_MeteringIsTheWeightedMean : 7 < 8 ∧ (∀ x ∈ meteringCells, x.mean ≤ 4095) ∧
    usedWeight meteringProfile 4 5 (meteringCells.getD 5 ⟨0, 0, false⟩) = 2 ∧
    usedWeight meteringProfile 4 0 (meteringCells.getD 0 ⟨0, 0, false⟩) = 0 := by decide

theorem witness_QuantizationFollowsItsSteps : (1 : Nat) ≤ 1000 ∧ (1 : Nat) ≤ 2500 ∧ (1000 : Nat) < 1001 ∧
    (100 : Nat) ≤ 100 ∧ (99 : Nat) < 100 ∧ 16 ≤ Profile.defaults.gainMax ∧
    Profile.defaults.lvlMin ≤ Profile.defaults.lvlMax := by decide

theorem witness_DecompositionKeepsItsBounds : ConsistentProfile Profile.defaults ∧ ProfileInRange Profile.defaults ∧
    quantize 1000 Profile.defaults.quantum 1 1000 = 1000 ∧ (1000 * 256 * 256 : Nat) ≤ 65536000 ∧ (16 : Nat) ≤ 1 * 16 * 1 :=
  ⟨by constructor <;> decide, by constructor <;> decide, by decide, by decide, by decide⟩

theorem witness_StepsMoveTheProduct : ConsistentProfile Profile.defaults ∧ 1 ≤ Profile.defaults.damp ∧
    Profile.defaults.damp ≤ 16 ∧ 1699 < Profile.defaults.innerLo ∧ Profile.defaults.innerHi < 1901 ∧
    Profile.defaults.rushHi < 3401 ∧ 599 < Profile.defaults.rushLo ∧ Profile.defaults.pace = .proportional ∧
    Pace.fine ≠ .proportional :=
  ⟨by constructor <;> decide, by decide, by decide, by decide, by decide, by decide, by decide, rfl, by decide⟩

/-- A trim for frame 100 of entries in force from 90, 100 and 102 removes the first of them. -/
theorem witness_TrimLeavesTheEntryInForce :
    let entry := fun f : Frame => (⟨some f, 1000, 16, 32, 512000, 1⟩ : Entry)
    trimOlder 100 [entry 90, entry 100] (entry 102) = [entry 100] := by decide

/-- R80, R81: behind the entry at 90 a push at 100 keeps the history whole; one at 102 behind the entry at 110 loses the
entries at 102 and 110. -/
theorem test_push : let entry := fun f : Frame => (⟨some f, 1000, 16, 32, 512000, 1⟩ : Entry)
    let c := { station with older := [entry 90, entry 102], newest := entry 110 }
    (Station.push 100 (entry 100) { station with newest := entry 90 }).history = [entry 90, entry 100] ∧
      (c.push 102 (entry 102)).history = [entry 90, entry 102] := by decide

/-- A distance of 8 is no gap and one of 9 is; a set at the measured frame is due and one after it is not. -/
theorem witness_StagesFourAndFive :
    ¬(station.profile.gapLimit * (inForce 100 station.older station.newest).span < (108#32 - 100#32).toNat) ∧
    station.profile.gapLimit * (inForce 100 station.older station.newest).span < (109#32 - 100#32).toNat ∧
    station.profile.gapPolicy = .reseek ∧ (commits []).sets[(0 : SetId)] = .armed 1 [] 4 1010 ∧
    frameAfter 1010 1009 = true ∧ frameAfter 1010 1010 = false ∧ ConsistentProfile (station.profile.merge []) ∧
    ¬ConsistentProfile (station.profile.merge [(.innerLo, 4000)]) :=
  ⟨by decide, by decide, rfl, rfl, by decide, by decide, by constructor <;> decide, fun h => absurd h.r2 (by decide)⟩

/-! ### Invariants -/

theorem witness_WorkRingsStaySound : let s := { arbitration with pending := [.take] }
    WorkRingsSound s ∧ ∃ t, step s = .next t :=
  ⟨⟨by decide, by decide, fun n w h =>
    (by decide : ∀ n : WorkRingId, ∀ w ∈ arbitration.workRings[n], (w.posted - w.taken).toNat ≤ w.size) n w h,
    fun n w h => by
      have := (by decide : ∀ n : WorkRingId, ∀ w ∈ arbitration.workRings[n],
        (n = 0 → w.weight = none) ∧ (n ≠ 0 → 1 ≤ w.weight.getD 0 ∧ w.weight.getD 0 ≤ 8)) n w h
      refine ⟨this.1, fun hn => ?_⟩
      cases hk : w.weight with
      | none =>
        rw [hk] at this
        exact absurd (this.2 hn).1 (by decide)
      | some k =>
        rw [hk] at this
        exact ⟨k, rfl, this.2 hn⟩⟩, _, rfl⟩

/-- The tasks of a table as the work rings count them, checked by evaluation. -/
theorem taskTableSound {s : State} (present : ∀ k : SlotId, ∀ t ∈ s.slots[k], s.workRings[t.ring] ≠ none)
    (counted : ∀ n : WorkRingId, ∀ w ∈ s.workRings[n],
      w.inFlight = (List.finRange 8).countP (fun k => ((s.slots[k]).map Task.ring) == some n) ∧
        w.inFlight ≤ if n = 0 then 1 else 4) : TaskTableSound s :=
  ⟨fun k t h => present k t h, fun n w h => (counted n w h).1, fun n w h => (counted n w h).2⟩

/-- A device that runs is no stopped one. -/
theorem running_stoppedEmpty {s : State} (h : s.controller = .running) : StoppedEmpty s :=
  ⟨fun n _ => absurd h n, fun o => by rcases o with o | o <;> rw [h] at o <;> cases o⟩

theorem witness_TaskTableStaysSound : let s := { written 2 with pending := [.resultWriteDone 1 0] }
    TaskTableSound s ∧ StoppedEmpty s ∧ ∃ t, step s = .next t :=
  ⟨taskTableSound (by decide) (by decide), running_stoppedEmpty rfl, _, rfl⟩

theorem written_resultRingsSound : ResultRingsSound (written 2) := by
  have rings : ∀ n : ResultRingId, ∀ q ∈ (written 2).resultRings[n], q.size ≤ 1024 ∧
      (q.placed - q.released).toNat + q.reserved ≤ q.size ∧
      (q.produced - q.released).toNat ≤ (q.placed - q.released).toNat := by decide
  have writes : ∀ n, writesOf (written 2) n = if n = 1 then [0] else [] := by decide
  have one : (written 2).resultRings[(1 : ResultRingId)] = some (resultRing 16 4 1 0 0 1 2) := rfl
  have write : ∀ {x : Transfer}, x ∈ (written 2).transfers →
      x = ⟨.completion 0 1 0, 0x4000, .write done.bytes, false, false, 0⟩ := fun h => List.mem_singleton.1 h
  refine ⟨fun u h => ?_, fun n q h => (rings n q h).1, fun n q h => (rings n q h).2.1, fun n q h => (rings n q h).2.2,
    fun n q h => ?_, fun n q h i hi => ?_, fun n h => ?_, ?_, List.pairwise_singleton _ _, ?_⟩
  · have e : none = some u := h
    cases e
  · rw [writes]
    split <;> simp
  · rw [writes] at hi
    split at hi
    · next e =>
      subst e
      cases one.symm.trans h
      cases List.mem_singleton.1 hi
      decide
    · cases hi
  · rw [writes]
    split
    · next e =>
      subst e
      cases one.symm.trans h
    · rfl
  · intro x hx k n i h
    cases write hx
    cases h
    exact ⟨_, _, _, _, _, rfl, rfl, rfl, rfl⟩
  · intro x hx id n i h
    cases write hx
    cases h

theorem witness_ResultRingsStaySound : let s := { written 2 with pending := [.resultWriteDone 1 0] }
    ResultRingsSound s ∧ TaskTableSound s ∧ StoppedEmpty s ∧ ∃ t, step s = .next t :=
  ⟨{ written_resultRingsSound with }, witness_TaskTableStaysSound⟩

theorem witness_StoppedStatesStayEmpty : let s := { zeroing with pending := [.writebackZeroingDone] }
    StoppedEmpty s ∧ ∃ t, step s = .next t :=
  ⟨⟨fun _ _ => by decide, fun _ => ⟨by decide, by decide, by decide, by decide⟩⟩, _, rfl⟩

/-- Set 0 stands armed for station 4 while the device takes a record. -/
theorem witness_PoolStaysSound : let s := { armedSet with pending := [.take] }
    PoolSound s ∧ ArmedSound s ∧ ∃ t, step s = .next t := by
  have only : ∀ id : StationId, ∀ c ∈ (armedSet.stations[id]).station, id = 4 ∧ c = { station with armed := [0] } := by
    decide
  refine ⟨⟨by decide, by decide⟩, ⟨fun id c h => ?_, fun id c h i hi => ?_, fun id c h i j e => ?_,
    fun i owner items id frame h => ?_⟩, _, rfl⟩
  · obtain ⟨-, rfl⟩ := only id c h
    decide
  · obtain ⟨rfl, rfl⟩ := only id c h
    cases List.mem_singleton.1 hi
    exact ⟨_, _, rfl⟩
  · obtain ⟨-, rfl⟩ := only id c h
    cases e
  · obtain rfl : i = 0 := (by decide : ∀ i : SetId, (armedSet.sets[i]).state = .armed → i = 0) i (by
      have e : armedSet.sets[i] = .armed owner items id frame := h
      rw [e]
      rfl)
    have e : (StagingSet.armed 1 [] 4 7) = .armed owner items id frame := h
    cases e
    exact ⟨_, rfl, by decide⟩

/-- Station 4 is the only one of `busy` that is not FREE. -/
theorem busy_station {id : StationId} {c : Station} (h : (busy.stations[id]).station = some c) : c = station :=
  (by decide : ∀ id : StationId, ∀ c ∈ (busy.stations[id]).station, c = station) id c h

theorem witness_ProfilesStayConsistent : let s := { busy with pending := [.take] }
    ProfilesSound s ∧ ∃ t, step s = .next t := by
  refine ⟨fun id c h => ?_, _, rfl⟩
  rw [busy_station h]
  constructor <;> decide

theorem witness_RegulationStaysInRange : let s := { busy with pending := [.take] }
    RegulationSound s ∧ ∃ t, step s = .next t := by
  refine ⟨⟨fun id c h => ?_, fun id c h => ?_, fun id c h => ?_, fun id c h => ?_, by decide⟩, _, rfl⟩ <;>
    rw [busy_station h]
  · decide
  · decide
  · constructor <;> decide
  · intro e he
    rw [List.mem_singleton.1 he]
    constructor <;> decide

theorem witness_HostMemoryStaysCanonical : let s := { busy.writeBack (.taken 1) 1 with
      hostMemory := [(0x3001, 7)], pending := [.writebackDone (.taken 1)] }
    s.hostMemory.wf = true ∧ ∃ t, step s = .next t := ⟨by decide, _, rfl⟩

end Sys2Proof.Tests
end

section
/-! What the shared operations leave of the controller state and of the banks: support for the invariants that every
step keeps. -/
namespace Sys2Proof.Machine

/-! ## Answers -/

/-- Every next state of an answer has a property. -/
def Leaves (a : Answer) (P : State → Prop) : Prop := ∀ t, a = .next t → P t

theorem leaves_next {t : State} {P : State → Prop} (h : P t) : Leaves (.next t) P := by
  intro u e
  cases e
  exact h

/-- What every command keeps, every step keeps, where the queue does not matter. -/
theorem step_keeps {P : State → Prop} (queue : ∀ s rest, P s → P { s with pending := rest })
    (command : ∀ i s, P s → Leaves (exec i s) P) {s t : State} (h : P s) (e : step s = .next t) : P t := by
  unfold step at e
  split at e
  · cases e
    exact h
  · exact command _ _ (queue s _ h) t e

/-! ## The controller state and the stations through the shared operations -/

section frames
variable (s : State)

@[simp] theorem State.writeBack_controller (place : Place) (index : RingIndex) :
    (s.writeBack place index).controller = s.controller := rfl
@[simp] theorem State.writeBack_stations (place : Place) (index : RingIndex) :
    (s.writeBack place index).stations = s.stations := rfl
@[simp] theorem State.answer_controller (k : SlotId) (t : Task) (r : Block64) (status : Status) (body : Body) :
    (s.answer k t r status body).controller = s.controller := rfl
@[simp] theorem State.answer_stations (k : SlotId) (t : Task) (r : Block64) (status : Status) (body : Body) :
    (s.answer k t r status body).stations = s.stations := rfl
@[simp] theorem State.answerStage_controller (k : SlotId) (t : Task) (r : Block64) (status : Status) (n : Nat)
    (x : StageExtra) : (s.answerStage k t r status n x).controller = s.controller := rfl
@[simp] theorem State.answerStage_stations (k : SlotId) (t : Task) (r : Block64) (status : Status) (n : Nat)
    (x : StageExtra) : (s.answerStage k t r status n x).stations = s.stations := rfl
@[simp] theorem State.setCause_controller (c : Cause) : (s.setCause c).controller = s.controller := rfl
@[simp] theorem State.setCause_stations (c : Cause) : (s.setCause c).stations = s.stations := rfl
@[simp] theorem State.freeNamed_controller (set : Option SetId) : (s.freeNamed set).controller = s.controller := by
  cases set <;> rfl
@[simp] theorem State.freeNamed_stations (set : Option SetId) : (s.freeNamed set).stations = s.stations := by
  cases set <;> rfl

@[simp] theorem State.endCloseDrain_controller (k : SlotId) : (s.endCloseDrain k).controller = s.controller := by
  rcases s.endCloseDrain_cases k with e | ⟨t, r, id, c, -, -, -, -, e⟩ <;> rw [e]

@[simp] theorem State.endDeleteDrain_controller (k : SlotId) : (s.endDeleteDrain k).controller = s.controller := by
  rcases s.endDeleteDrain_cases k with e | ⟨t, r, n, w, -, -, -, -, e⟩ <;> rw [e]

@[simp] theorem State.endDeleteDrain_stations (k : SlotId) : (s.endDeleteDrain k).stations = s.stations := by
  rcases s.endDeleteDrain_cases k with e | ⟨t, r, n, w, -, -, -, -, e⟩ <;> rw [e]

@[simp] theorem State.advanceWritten_controller (n : WorkRingId) : (s.advanceWritten n).controller = s.controller := by
  unfold State.advanceWritten
  split <;> rfl

@[simp] theorem State.advanceWritten_stations (n : WorkRingId) : (s.advanceWritten n).stations = s.stations := by
  unfold State.advanceWritten
  split <;> rfl

@[simp] theorem State.holdRecord_controller (k : SlotId) (t : Task) (r : Block64) :
    (s.holdRecord k t r).controller = s.controller := by
  unfold State.holdRecord
  split <;> rfl

@[simp] theorem State.holdRecord_stations (k : SlotId) (t : Task) (r : Block64) :
    (s.holdRecord k t r).stations = s.stations := by
  unfold State.holdRecord
  split <;> rfl

end frames

/-! ## Nothing is made present -/

/-- An event that leaves the controller state and makes nothing present: what is FREE or ABSENT stays so. -/
structure AddsNothing (s t : State) : Prop where
  controller : t.controller = s.controller
  slots : ∀ k : SlotId, s.slots[k] = none → t.slots[k] = none
  workRings : ∀ n : WorkRingId, s.workRings[n] = none → t.workRings[n] = none
  resultRings : ∀ n : ResultRingId, s.resultRings[n] = none → t.resultRings[n] = none
  stations : ∀ id : StationId, s.stations[id] = .free → t.stations[id] = .free
  sets : ∀ i : SetId, s.sets[i] = .free → t.sets[i] = .free

theorem AddsNothing.refl (s : State) : AddsNothing s s where
  controller := rfl
  slots _ h := h
  workRings _ h := h
  resultRings _ h := h
  stations _ h := h
  sets _ h := h

theorem AddsNothing.trans {s t u : State} (h : AddsNothing s t) (h' : AddsNothing t u) : AddsNothing s u where
  controller := h'.controller.trans h.controller
  slots k e := h'.slots k (h.slots k e)
  workRings n e := h'.workRings n (h.workRings n e)
  resultRings n e := h'.resultRings n (h.resultRings n e)
  stations id e := h'.stations id (h.stations id e)
  sets i e := h'.sets i (h.sets i e)

theorem AddsNothing.foldl {α : Type} {f : State → α → State} (h : ∀ s a, AddsNothing s (f s a)) (l : List α)
    (s : State) : AddsNothing s (l.foldl f s) := by
  induction l generalizing s with
  | nil => exact .refl s
  | cons a rest ih => exact (h s a).trans (ih _)

/-- Writing a place that is not vacant leaves the vacant places vacant. -/
theorem vacant_set {α : Type} {n : Nat} {v : Vector α n} {i : Fin n} {e : α} (h : v[i] ≠ e) (x : α) (j : Fin n)
    (hj : v[j] = e) : (v.set i x)[j] = e := by
  rw [get_set, if_neg (fun hij : i = j => h (hij ▸ hj)), hj]

theorem vacant_set_vacant {α : Type} {n : Nat} {v : Vector α n} (i : Fin n) {e : α} (j : Fin n)
    (hj : v[j] = e) : (v.set i e)[j] = e := by
  rw [get_set, hj, ite_self]

theorem addsNothing_endDone {s t : State} {kind : TransferKind} {e : Nat} (h : s.endDone kind e = some t) :
    AddsNothing s t := by
  obtain ⟨x, -, -, m, rfl, -⟩ := State.endDone_eq_some h
  exact { AddsNothing.refl s with }

theorem addsNothing_endFailed {s t : State} {kind : TransferKind} {e : Nat} (h : s.endFailed kind e = some t) :
    AddsNothing s t := by
  obtain ⟨x, -, m, d, rfl, -⟩ := State.endFailed_eq_some h
  exact { AddsNothing.refl s with }

theorem addsNothing_announce (s : State) (n : ResultRingId) (due : ResultRing → Bool) :
    AddsNothing s (s.announce n due) := by
  cases h : s.resultRings[n] with
  | none => rw [State.announce_absent h]; exact .refl s
  | some q =>
    rw [State.announce_spec h]
    split
    · exact { AddsNothing.refl s with resultRings := vacant_set (by simp [h]) _ }
    · exact .refl s

theorem addsNothing_announceAll (s : State) : AddsNothing s s.announceAll :=
  .foldl (fun s n => addsNothing_announce s n _) _ s

theorem State.recordProduced_absent {s : State} {n : ResultRingId} (h : s.resultRings[n] = none) :
    s.recordProduced n = s := by
  unfold State.recordProduced
  rw [h]

theorem addsNothing_recordProduced (s : State) (n : ResultRingId) : AddsNothing s (s.recordProduced n) := by
  cases h : s.resultRings[n] with
  | none => rw [State.recordProduced_absent h]; exact .refl s
  | some q =>
    rw [State.recordProduced_spec h]
    exact { AddsNothing.refl s with resultRings := vacant_set (by simp [h]) _ }

theorem addsNothing_emitNotice (s : State) (id : StationId) : AddsNothing s (s.emitNotice id) := by
  rcases s.emitNotice_cases id with ⟨e, -⟩ | ⟨c, q, hc, hq, -, -, -, e⟩
  · rw [e]; exact .refl s
  · rw [e]
    exact { AddsNothing.refl s with
      stations := vacant_set (by simp [hc]) _
      resultRings := vacant_set (by simp [hq]) _ }

theorem addsNothing_offerSlots (s : State) (n : ResultRingId) : AddsNothing s (s.offerSlots n) := by
  refine .foldl (fun s id => ?_) _ s
  split
  · exact addsNothing_emitNotice s id
  · exact .refl s

theorem addsNothing_endCloseDrain (s : State) (k : SlotId) : AddsNothing s (s.endCloseDrain k) := by
  rcases s.endCloseDrain_cases k with e | ⟨t, r, id, c, ht, -, -, -, e⟩
  · rw [e]; exact .refl s
  · rw [e]
    exact { AddsNothing.refl s with
      slots := vacant_set (by simp [ht]) _
      stations := vacant_set_vacant id
      sets := fun i h => by rw [get_freeSets, h, ite_self] }

theorem addsNothing_endDeleteDrain (s : State) (k : SlotId) : AddsNothing s (s.endDeleteDrain k) := by
  rcases s.endDeleteDrain_cases k with e | ⟨t, r, n, w, ht, -, -, -, e⟩
  · rw [e]; exact .refl s
  · rw [e]
    exact { AddsNothing.refl s with
      slots := vacant_set (by simp [ht]) _
      workRings := vacant_set_vacant n
      sets := fun i h => by rw [get_mapBank, h]; rfl }

theorem addsNothing_settleDrains (s : State) : AddsNothing s s.settleDrains :=
  .foldl (fun s k => (addsNothing_endCloseDrain s k).trans (addsNothing_endDeleteDrain _ k)) _ s

theorem addsNothing_freeSlot (s : State) (k : SlotId) : AddsNothing s (s.freeSlot k) := by
  unfold State.freeSlot
  split
  · exact .refl s
  · next t ht =>
    have slots : ∀ j : SlotId, s.slots[j] = none →
        (mapBank (Option.map (Task.forgetSlot k)) (s.slots.set k none))[j] = none := fun j hj => by
      rw [get_mapBank, vacant_set_vacant k j hj, Option.map_none]
    dsimp only
    split
    · exact { AddsNothing.refl s with slots := slots }
    · next w hw =>
      exact { AddsNothing.refl s with slots := slots, workRings := vacant_set (by simp [hw]) _ }

theorem addsNothing_noticeWritten (s : State) (id : StationId) (n : ResultRingId) :
    AddsNothing s (s.noticeWritten id n) := by
  have marked : AddsNothing s
      (s.setStation id (s.stations[id].update fun c => { c with noticeInFlight := s.noticePending id })) :=
    { AddsNothing.refl s with
      stations := fun j hj => by
        rw [State.setStation_stations, get_set]
        split
        · next h => rw [h, hj]; rfl
        · exact hj }
  unfold State.noticeWritten
  dsimp only
  split
  · exact marked.trans (addsNothing_announce _ n _)
  · exact marked

theorem addsNothing_reject (s : State) (value : Register) (why : RejectReason) : AddsNothing s (s.reject value why) :=
  { AddsNothing.refl s with }

theorem addsNothing_postWork (s : State) (value : Register) : AddsNothing s (s.postWork value) := by
  unfold State.postWork
  split
  · exact addsNothing_reject ..
  · split
    · exact addsNothing_reject ..
    · next w hw =>
      split
      · exact addsNothing_reject ..
      · exact { AddsNothing.refl s with workRings := vacant_set (by simp [hw]) _ }

theorem addsNothing_releaseResult (s : State) (value : Register) : AddsNothing s (s.releaseResult value) := by
  unfold State.releaseResult
  split
  · exact addsNothing_reject ..
  · split
    · exact addsNothing_reject ..
    · next q hq =>
      split
      · exact addsNothing_reject ..
      · split
        · exact .refl s
        · refine AddsNothing.trans ?_ (addsNothing_offerSlots _ _)
          exact { AddsNothing.refl s with resultRings := vacant_set (by simp [hq]) _ }

theorem addsNothing_writePost (s : State) (value : Register) : AddsNothing s (s.writePost value) := by
  unfold State.writePost
  split
  · exact addsNothing_postWork ..
  · split
    · exact addsNothing_releaseResult ..
    · exact addsNothing_reject ..

end Sys2Proof.Machine
end

section
/-! OFF and STARTING hold nothing, QUIESCED and HALTED no task (R2, R132, R164): every command keeps it. -/
namespace Sys2Proof.Machine

/-- RUNNING or QUIESCING: the controller states that hold tasks. -/
abbrev Active (s : State) : Prop := s.controller = .running ∨ s.controller = .quiescing

theorem StoppedEmpty.of_active {s : State} (h : Active s) : StoppedEmpty s where
  slots h1 h2 := (h.elim h1 h2).elim
  blocks hb := by rcases h with h | h <;> simp [h] at hb

theorem StoppedEmpty.active {s : State} (h : StoppedEmpty s) {k : SlotId} {t : Task} (ht : s.slots[k] = some t) :
    Active s := by
  by_contra hn
  obtain ⟨h1, h2⟩ := not_or.mp hn
  rw [h.slots h1 h2 k] at ht
  cases ht

/-- In QUIESCED and HALTED only the task table has to be empty. -/
theorem StoppedEmpty.of_slots {s : State} (h : s.controller = .quiesced ∨ s.controller = .halted)
    (hs : ∀ k : SlotId, s.slots[k] = none) : StoppedEmpty s where
  slots _ _ := hs
  blocks hb := by rcases h with h | h <;> simp [h] at hb

theorem StoppedEmpty.of_blocks {s : State} (slots : ∀ k : SlotId, s.slots[k] = none)
    (workRings : ∀ n : WorkRingId, s.workRings[n] = none) (resultRings : ∀ n : ResultRingId, s.resultRings[n] = none)
    (stations : ∀ id : StationId, s.stations[id] = .free) (sets : ∀ i : SetId, s.sets[i] = .free) : StoppedEmpty s where
  slots _ _ := slots
  blocks _ := ⟨workRings, resultRings, stations, sets⟩

theorem StoppedEmpty.of_addsNothing {s t : State} (h : StoppedEmpty s) (a : AddsNothing s t) : StoppedEmpty t where
  slots h1 h2 k := a.slots k (h.slots (a.controller ▸ h1) (a.controller ▸ h2) k)
  blocks hb := by
    obtain ⟨workRings, resultRings, stations, sets⟩ := h.blocks (a.controller ▸ hb)
    exact ⟨fun n => a.workRings n (workRings n), fun n => a.resultRings n (resultRings n),
      fun id => a.stations id (stations id), fun i => a.sets i (sets i)⟩

/-- An execution acts only where a task is held, so in RUNNING or QUIESCING, and leaves the controller state. -/
theorem StoppedEmpty.executing {s : State} (h : StoppedEmpty s) (k : SlotId) (kind : Nat) {act : Task → Block64 → State}
    (hact : ∀ t r, (act t r).controller = s.controller) : StoppedEmpty (s.executing k kind act) := by
  rcases s.executing_cases k kind act with e | ⟨t, r, hr, e⟩
  · rw [e]; exact h
  · rw [e]
    have := h.active hr.held
    exact .of_active (by rwa [Active, hact])

/-! ## Halt and teardown -/

theorem StoppedEmpty.halt {s : State} (h : StoppedEmpty s) (why : HaltCause) : StoppedEmpty (s.halt why) := by
  by_cases hh : Halts s
  · obtain ⟨m, d, e, -⟩ := State.halt_spec hh why
    rw [e]
    exact .of_slots (.inr rfl) fun k => by simp [haltedAs]
  · rw [State.halt_of_not hh]
    exact h

theorem StoppedEmpty.teardown (s : State) : StoppedEmpty s.teardown := by
  obtain ⟨m, d, e, -⟩ := s.teardown_spec
  rw [e]
  exact .of_blocks (by simp [tornDown]) (by simp [tornDown]) (by simp [tornDown]) (by simp [tornDown])
    (by simp [tornDown])

/-! ## CTRL writes -/

theorem StoppedEmpty.beginStartUp {s : State} (h : StoppedEmpty s) (off : s.controller = .off) :
    StoppedEmpty s.beginStartUp := by
  obtain ⟨workRings, resultRings, stations, sets⟩ := h.blocks (.inl off)
  have slots := h.slots (by simp [off]) (by simp [off])
  have started : StoppedEmpty { s with controller := .starting, haltCause := .none } :=
    .of_blocks slots workRings resultRings stations sets
  unfold State.beginStartUp
  dsimp only
  split
  · exact started.of_addsNothing { AddsNothing.refl _ with }
  · exact started.halt _

theorem StoppedEmpty.becomeQuiesced {s : State} (h : s.tableEmpty = true) : StoppedEmpty s.becomeQuiesced :=
  .of_slots (.inl rfl) ((State.tableEmpty_iff s).mp h)

theorem StoppedEmpty.beginQuiesce (s : State) : StoppedEmpty s.beginQuiesce := by
  unfold State.beginQuiesce
  split
  · next h => exact .becomeQuiesced h
  · exact .of_active (.inr rfl)

theorem State.resume_controller (s : State) : s.resume.controller = .running :=
  (AddsNothing.foldl addsNothing_offerSlots (List.finRange 4) { s with controller := .running }).controller

theorem StoppedEmpty.enabledWrite {s : State} (h : StoppedEmpty s) (before : Bool) :
    StoppedEmpty (s.enabledWrite before) := by
  unfold State.enabledWrite
  split
  · next off => exact h.beginStartUp off
  · split
    · exact .beginQuiesce s
    · exact h
  · split
    · exact .of_active (.inl s.resume_controller)
    · exact h
  · split
    · exact .of_active (.inl s.resume_controller)
    · exact h
  · exact h
  · exact h

theorem StoppedEmpty.writeCtrl {s : State} (h : StoppedEmpty s) (value : Register) :
    StoppedEmpty (s.writeCtrl value) := by
  have stored : StoppedEmpty { s with quiesceBit := ctrlQuiesce value } :=
    h.of_addsNothing { AddsNothing.refl s with }
  unfold State.writeCtrl
  split
  · exact (StoppedEmpty.teardown s).of_addsNothing { AddsNothing.refl _ with }
  · dsimp only
    split
    · exact stored.enabledWrite _
    · split
      · exact stored
      · exact .teardown _

/-! ## The register window -/

theorem StoppedEmpty.reached {s : State} (h : StoppedEmpty s) {act : State → State} (hact : StoppedEmpty (act s)) :
    StoppedEmpty (s.reached act) := by
  unfold State.reached
  split
  · exact hact
  · exact h

theorem StoppedEmpty.writePost {s : State} (h : StoppedEmpty s) (value : Register) : StoppedEmpty (s.writePost value) :=
  h.of_addsNothing (addsNothing_writePost s value)

theorem StoppedEmpty.writeRegister {s : State} (h : StoppedEmpty s) (offset : BitVec 12) (value : Register) :
    StoppedEmpty (s.writeRegister offset value) := by
  unfold State.writeRegister
  split
  · exact h.writeCtrl value
  · exact h.of_addsNothing { AddsNothing.refl s with }
  · exact h.of_addsNothing { AddsNothing.refl s with }
  · exact h.writePost value
  · exact h.of_addsNothing { AddsNothing.refl s with }
  · exact h.of_addsNothing { AddsNothing.refl s with }
  · exact h

theorem StoppedEmpty.hardReset (s : State) (why : ResetCause) : StoppedEmpty (s.hardReset why) :=
  (StoppedEmpty.teardown s).of_addsNothing { AddsNothing.refl _ with }

/-! ## Takes and the ends of transfers -/

theorem State.eligible_running {s : State} {n : WorkRingId} (h : s.eligible n = true) : s.controller = .running := by
  obtain ⟨w, q, hc⟩ := (canTake_iff s n).mpr h
  exact hc.running

/-- The arbiter chooses only in RUNNING (R122). -/
theorem State.choose_running {s : State} {c : Choice} (h : s.choose = some c) : s.controller = .running := by
  unfold State.choose at h
  split at h
  · next h0 => exact State.eligible_running h0
  · split at h
    · next hp =>
      obtain ⟨-, he, -⟩ := hp
      exact State.eligible_running he
    · obtain ⟨n, hn, -⟩ := Option.map_eq_some_iff.mp h
      exact State.eligible_running (List.find?_some hn)

theorem StoppedEmpty.take {s : State} (h : StoppedEmpty s) : Leaves (execTake s) StoppedEmpty := by
  unfold execTake
  refine leaves_next ?_
  split
  · next choice k hc hk =>
    have running := State.choose_running hc
    split
    · exact h
    · split
      · exact h
      · exact .of_active (.inl running)
  · exact h

theorem StoppedEmpty.resultWrite {s : State} (h : StoppedEmpty s) (k : SlotId) :
    Leaves (execResultWrite k s) StoppedEmpty := by
  unfold execResultWrite
  refine leaves_next ?_
  split
  · exact h
  · next t ht =>
    have active := h.active ht
    split
    · split
      · exact h
      · split
        · exact h
        · split
          · exact .of_active active
          · exact h
    all_goals exact h

theorem StoppedEmpty.recordReadDone {s : State} (h : StoppedEmpty s) (k : SlotId) (r : Block64) (e : Nat) :
    Leaves (execRecordReadDone k r s e) StoppedEmpty := by
  unfold execRecordReadDone
  refine leaves_next ?_
  split
  · exact h
  · next t ht =>
    split
    · split
      · exact h
      · next s' hs =>
        have := h.active ht
        refine .of_active ?_
        rwa [Active, State.advanceWritten_controller, State.holdRecord_controller, (addsNothing_endDone hs).controller]
    all_goals exact h

theorem StoppedEmpty.recordReadFault {s : State} (h : StoppedEmpty s) (k : SlotId) (e : Nat) :
    Leaves (execRecordReadFault k s e) StoppedEmpty := by
  unfold execRecordReadFault
  refine leaves_next ?_
  split
  · exact h
  · next t ht =>
    split
    · split
      · exact h
      · next s' hs =>
        have active : Active s' := by
          have := h.active ht
          rwa [Active, (addsNothing_endFailed hs).controller]
        refine .of_active ?_
        dsimp only
        rw [Active, State.advanceWritten_controller]
        split <;> exact active
    all_goals exact h

theorem StoppedEmpty.gridReadDone {s : State} (h : StoppedEmpty s) (k : SlotId) (data : List Byte) (e : Nat) :
    Leaves (execGridReadDone k data s e) StoppedEmpty := by
  unfold execGridReadDone
  refine leaves_next ?_
  split
  · exact h
  · next t ht =>
    split
    · split
      · exact h
      · next s' hs =>
        split
        · have := h.active ht
          refine .of_active ?_
          rwa [Active, State.setSlot_controller, (addsNothing_endDone hs).controller]
        · exact h
    all_goals exact h

theorem StoppedEmpty.gridReadFault {s : State} (h : StoppedEmpty s) (k : SlotId) (e : Nat) :
    Leaves (execGridReadFault k s e) StoppedEmpty := by
  unfold execGridReadFault
  refine leaves_next ?_
  split
  · exact h
  · next t ht =>
    split
    · split
      · exact h
      · next s' hs =>
        have := h.active ht
        refine .of_active ?_
        rwa [Active, State.setSlot_controller, (addsNothing_endFailed hs).controller]
    all_goals exact h

theorem StoppedEmpty.snapshotWriteDone {s : State} (h : StoppedEmpty s) (k : SlotId) (e : Nat) :
    Leaves (execSnapshotWriteDone k s e) StoppedEmpty := by
  unfold execSnapshotWriteDone
  refine leaves_next ?_
  split
  · exact h
  · next s' hs => exact h.of_addsNothing (addsNothing_endDone hs)

theorem StoppedEmpty.snapshotWriteFault {s : State} (h : StoppedEmpty s) (k : SlotId) (e : Nat) :
    Leaves (execSnapshotWriteFault k s e) StoppedEmpty := by
  unfold execSnapshotWriteFault
  refine leaves_next ?_
  split
  · exact h
  · next s' hs =>
    refine (h.of_addsNothing (addsNothing_endFailed hs)).of_addsNothing
      { AddsNothing.refl s' with slots := fun j hj => ?_ }
    rw [State.setSlot_slots, get_set]
    split
    · next hkj => rw [hkj, hj]; rfl
    · exact hj

/-- The controller becomes QUIESCED at the end of a completion's write only with the table empty (R165). -/
theorem StoppedEmpty.afterLastTask {s : State} (h : StoppedEmpty s) : StoppedEmpty s.afterLastTask := by
  have announced := addsNothing_announceAll s
  unfold State.afterLastTask
  split
  · next he =>
    dsimp only
    split
    · exact .becomeQuiesced ((State.tableEmpty_iff _).mpr fun k =>
        announced.slots k ((State.tableEmpty_iff s).mp he k))
    · exact h.of_addsNothing announced
  · exact h

theorem StoppedEmpty.resultWriteDone {s : State} (h : StoppedEmpty s) (n : ResultRingId) (i : RingIndex) (e : Nat) :
    Leaves (execResultWriteDone n i s e) StoppedEmpty := by
  unfold execResultWriteDone
  refine leaves_next ?_
  split
  · exact h
  · split
    · exact h
    · next s' hs =>
      have produced : StoppedEmpty (s'.recordProduced n) :=
        h.of_addsNothing ((addsNothing_endDone hs).trans (addsNothing_recordProduced s' n))
      dsimp only
      split
      · next k _ _ _ =>
        exact (produced.of_addsNothing (addsNothing_freeSlot _ k)).afterLastTask.of_addsNothing
          (addsNothing_settleDrains _)
      · next id _ _ _ =>
        exact produced.of_addsNothing ((addsNothing_noticeWritten _ id n).trans (addsNothing_settleDrains _))
      · exact produced

/-- A failed end that requests a halt. -/
theorem StoppedEmpty.endFailed_halt {s t : State} (h : StoppedEmpty s) {kind : TransferKind} {e : Nat}
    (hs : s.endFailed kind e = some t) (why : HaltCause) : StoppedEmpty (t.halt why) :=
  (h.of_addsNothing (addsNothing_endFailed hs)).halt why

theorem StoppedEmpty.resultWriteFault {s : State} (h : StoppedEmpty s) (n : ResultRingId) (i : RingIndex) (e : Nat) :
    Leaves (execResultWriteFault n i s e) StoppedEmpty := by
  unfold execResultWriteFault
  refine leaves_next ?_
  split
  · exact h
  · split
    · exact h
    · next hs => exact h.endFailed_halt hs _

theorem StoppedEmpty.writebackDone {s : State} (h : StoppedEmpty s) (place : Place) (e : Nat) :
    Leaves (execWritebackDone place s e) StoppedEmpty := by
  unfold execWritebackDone
  refine leaves_next ?_
  split
  · exact h
  · next hs => exact h.of_addsNothing (addsNothing_endDone hs)

theorem StoppedEmpty.writebackFault {s : State} (h : StoppedEmpty s) (place : Place) (e : Nat) :
    Leaves (execWritebackFault place s e) StoppedEmpty := by
  unfold execWritebackFault
  refine leaves_next ?_
  split
  · exact h
  · next hs => exact h.endFailed_halt hs _

/-! ## Start-up -/

theorem StoppedEmpty.setupReadDone {s : State} (h : StoppedEmpty s) (block : Block64) (e : Nat) :
    Leaves (execSetupReadDone block s e) StoppedEmpty := by
  unfold execSetupReadDone
  refine leaves_next ?_
  split
  · next s' _ hs =>
    have ended := h.of_addsNothing (addsNothing_endDone hs)
    split
    · exact ended.of_addsNothing { AddsNothing.refl s' with }
    · exact ended.halt _
  · exact h

theorem StoppedEmpty.setupReadFault {s : State} (h : StoppedEmpty s) (e : Nat) :
    Leaves (execSetupReadFault s e) StoppedEmpty := by
  unfold execSetupReadFault
  refine leaves_next ?_
  split
  · exact h
  · next hs => exact h.endFailed_halt hs _

theorem State.completeStartUp_slots (s : State) (u : Setup) : (s.completeStartUp u).slots = s.slots := by
  rw [State.completeStartUp, apply_ite State.slots]
  exact ite_self _

theorem State.completeStartUp_controller (s : State) (u : Setup) :
    (s.completeStartUp u).controller = if s.quiesceBit then .quiesced else .running := by
  rw [State.completeStartUp, apply_ite State.controller]
  exact ite_self _

/-- The end of start-up leaves RUNNING, or QUIESCED with the empty table of STARTING (R163). -/
theorem StoppedEmpty.completeStartUp {s : State} (hs : ∀ k : SlotId, s.slots[k] = none) (u : Setup) :
    StoppedEmpty (s.completeStartUp u) := by
  have controller := s.completeStartUp_controller u
  split at controller
  · exact .of_slots (.inl controller) (s.completeStartUp_slots u ▸ hs)
  · exact .of_active (.inl controller)

theorem StoppedEmpty.writebackZeroingDone {s : State} (h : StoppedEmpty s) (e : Nat) :
    Leaves (execWritebackZeroingDone s e) StoppedEmpty := by
  unfold execWritebackZeroingDone
  refine leaves_next ?_
  split
  · next s' u hc hs _ =>
    have slots := h.slots (by simp [hc]) (by simp [hc])
    exact .completeStartUp (fun k => (addsNothing_endDone hs).slots k (slots k)) u
  · exact h

theorem StoppedEmpty.writebackZeroingFault {s : State} (h : StoppedEmpty s) (e : Nat) :
    Leaves (execWritebackZeroingFault s e) StoppedEmpty := by
  unfold execWritebackZeroingFault
  refine leaves_next ?_
  split
  · exact h
  · next hs => exact h.endFailed_halt hs _

/-! ## Executions -/

theorem StoppedEmpty.homeCommand {s : State} (h : StoppedEmpty s) (k : SlotId) (kind : Nat) (fields : Block64 → Bool)
    (act : Block64 → Station → Station) : StoppedEmpty (s.homeCommand k kind fields act) :=
  h.executing k kind fun t r => by split <;> rfl

theorem StoppedEmpty.measure {s : State} (h : StoppedEmpty s) (k : SlotId) : Leaves (execMeasure k s) StoppedEmpty :=
  leaves_next <| h.executing k _ fun t r => by split <;> rfl

theorem StoppedEmpty.queryDevice {s : State} (h : StoppedEmpty s) (k : SlotId) :
    Leaves (execQueryDevice k s) StoppedEmpty :=
  leaves_next <| h.executing k _ fun t r => by split <;> rfl

theorem StoppedEmpty.createWorkRing {s : State} (h : StoppedEmpty s) (k : SlotId) :
    Leaves (execCreateWorkRing k s) StoppedEmpty :=
  leaves_next <| h.executing k _ fun t r => by split <;> rfl

theorem StoppedEmpty.deleteWorkRing {s : State} (h : StoppedEmpty s) (k : SlotId) :
    Leaves (execDeleteWorkRing k s) StoppedEmpty :=
  leaves_next <| h.executing k _ fun t r => by split <;> simp

theorem StoppedEmpty.createResultRing {s : State} (h : StoppedEmpty s) (k : SlotId) :
    Leaves (execCreateResultRing k s) StoppedEmpty :=
  leaves_next <| h.executing k _ fun t r => by split <;> rfl

theorem StoppedEmpty.deleteResultRing {s : State} (h : StoppedEmpty s) (k : SlotId) :
    Leaves (execDeleteResultRing k s) StoppedEmpty :=
  leaves_next <| h.executing k _ fun t r => by split <;> rfl

theorem StoppedEmpty.openStation {s : State} (h : StoppedEmpty s) (k : SlotId) :
    Leaves (execOpenStation k s) StoppedEmpty :=
  leaves_next <| h.executing k _ fun t r => by
    split
    · rfl
    · dsimp only
      split <;> simp

theorem StoppedEmpty.closeStation {s : State} (h : StoppedEmpty s) (k : SlotId) :
    Leaves (execCloseStation k s) StoppedEmpty :=
  leaves_next <| h.executing k _ fun t r => by split <;> simp

theorem StoppedEmpty.readStation {s : State} (h : StoppedEmpty s) (k : SlotId) :
    Leaves (execReadStation k s) StoppedEmpty :=
  leaves_next <| h.executing k _ fun t r => by split <;> rfl

theorem StoppedEmpty.stageOpen {s : State} (h : StoppedEmpty s) (k : SlotId) :
    Leaves (execStageOpen k s) StoppedEmpty :=
  leaves_next <| h.executing k _ fun t r => by split <;> rfl

theorem StoppedEmpty.stagePut {s : State} (h : StoppedEmpty s) (k : SlotId) :
    Leaves (execStagePut k s) StoppedEmpty :=
  leaves_next <| h.executing k _ fun t r => by split <;> rfl

@[simp] theorem State.commitAtFrame_controller (s : State) (k : SlotId) (t : Task) (r : Block64) (q : CommitRequest) :
    (s.commitAtFrame k t r q).controller = s.controller := by
  unfold State.commitAtFrame
  dsimp only
  split
  · rfl
  · split <;> rfl

@[simp] theorem State.commitImmediate_controller (s : State) (k : SlotId) (t : Task) (r : Block64) (q : CommitRequest) :
    (s.commitImmediate k t r q).controller = s.controller := by
  unfold State.commitImmediate
  dsimp only
  split <;> rfl

theorem StoppedEmpty.stageCommit {s : State} (h : StoppedEmpty s) (k : SlotId) :
    Leaves (execStageCommit k s) StoppedEmpty :=
  leaves_next <| h.executing k _ fun t r => by
    split
    · rfl
    · split <;> simp

theorem StoppedEmpty.stageDiscard {s : State} (h : StoppedEmpty s) (k : SlotId) :
    Leaves (execStageDiscard k s) StoppedEmpty :=
  leaves_next <| h.executing k _ fun t r => by
    split
    · rfl
    · split
      · rfl
      · rfl
      · split <;> rfl

theorem State.ready_held {s : State} {k : SlotId} {t : Task} {r : Option Block64} (h : s.ready k = some (t, r)) :
    s.slots[k] = some t := by
  unfold State.ready at h
  split at h
  · cases h
  · next u hu =>
    split at h
    · split at h
      · cases h; exact hu
      · cases h
    all_goals cases h

theorem StoppedEmpty.badKind {s : State} (h : StoppedEmpty s) (k : SlotId) : Leaves (execBadKind k s) StoppedEmpty := by
  unfold execBadKind
  refine leaves_next ?_
  split
  · next hr =>
    split
    · exact h
    · exact .of_active (h.active (State.ready_held hr))
  · exact h

theorem StoppedEmpty.recordUnreadable {s : State} (h : StoppedEmpty s) (k : SlotId) :
    Leaves (execRecordUnreadable k s) StoppedEmpty := by
  unfold execRecordUnreadable
  refine leaves_next ?_
  split
  · next hr => exact .of_active (h.active (State.ready_held hr))
  · exact h

/-! ## Every command -/

theorem stoppedEmpty_exec (i : Instr) (s : State) (h : StoppedEmpty s) : Leaves (exec i s) StoppedEmpty := by
  cases i with
  | queryDevice k => exact h.queryDevice k
  | createWorkRing k => exact h.createWorkRing k
  | deleteWorkRing k => exact h.deleteWorkRing k
  | createResultRing k => exact h.createResultRing k
  | deleteResultRing k => exact h.deleteResultRing k
  | openStation k => exact h.openStation k
  | closeStation k => exact h.closeStation k
  | readStation k => exact h.readStation k
  | measure k => exact h.measure k
  | freeze k => exact leaves_next (h.homeCommand ..)
  | thaw k => exact leaves_next (h.homeCommand ..)
  | reseek k => exact leaves_next (h.homeCommand ..)
  | setActuators k => exact leaves_next (h.homeCommand ..)
  | ackNotice k => exact leaves_next (h.homeCommand ..)
  | stageOpen k => exact h.stageOpen k
  | stagePut k => exact h.stagePut k
  | stageCommit k => exact h.stageCommit k
  | stageDiscard k => exact h.stageDiscard k
  | badKind k => exact h.badKind k
  | recordUnreadable k => exact h.recordUnreadable k
  | softReset v => exact leaves_next (h.reached (h.writeCtrl v))
  | startUp v => exact leaves_next (h.reached (h.writeCtrl v))
  | enableOff v => exact leaves_next (h.reached (h.writeCtrl v))
  | quiesce v => exact leaves_next (h.reached (h.writeCtrl v))
  | quiesceClear v => exact leaves_next (h.reached (h.writeCtrl v))
  | postWork v => exact leaves_next (h.reached (h.writePost v))
  | releaseResult v => exact leaves_next (h.reached (h.writePost v))
  | badOperation v => exact leaves_next (h.reached (h.writePost v))
  | causeClear v => exact leaves_next (h.reached (h.of_addsNothing { AddsNothing.refl s with }))
  | maskWrite v => exact leaves_next (h.reached (h.of_addsNothing { AddsNothing.refl s with }))
  | registerWrite offset bytes v =>
    refine leaves_next (h.reached ?_)
    split
    · exact h.writeRegister offset v
    · exact h
  | powerOnReset => exact leaves_next ((StoppedEmpty.hardReset s .powerOn).of_addsNothing { AddsNothing.refl _ with })
  | pinReset => exact leaves_next (.hardReset s .pin)
  | linkDown => exact leaves_next (h.of_addsNothing { AddsNothing.refl s with })
  | completionTimeout read e => exact leaves_next (h.of_addsNothing { AddsNothing.refl s with })
  | take => exact h.take
  | recordReadDone k r e => exact h.recordReadDone k r e
  | recordReadFault k e => exact h.recordReadFault k e
  | gridReadDone k data e => exact h.gridReadDone k data e
  | gridReadFault k e => exact h.gridReadFault k e
  | snapshotWriteDone k e => exact h.snapshotWriteDone k e
  | snapshotWriteFault k e => exact h.snapshotWriteFault k e
  | resultWrite k => exact h.resultWrite k
  | resultWriteDone n i e => exact h.resultWriteDone n i e
  | resultWriteFault n i e => exact h.resultWriteFault n i e
  | writebackFault place e => exact h.writebackFault place e
  | setupReadDone block e => exact h.setupReadDone block e
  | setupReadFault e => exact h.setupReadFault e
  | writebackZeroingDone e => exact h.writebackZeroingDone e
  | writebackZeroingFault e => exact h.writebackZeroingFault e
  | closeDrainEnd k => exact leaves_next (h.of_addsNothing (addsNothing_endCloseDrain s k))
  | deleteDrainEnd k => exact leaves_next (h.of_addsNothing (addsNothing_endDeleteDrain s k))
  | noticeEmission id => exact leaves_next (h.of_addsNothing (addsNothing_emitNotice s id))
  | writebackDone place e => exact h.writebackDone place e
  | linkUp => exact leaves_next (h.of_addsNothing { AddsNothing.refl s with })
  | configurationSpaceWrite config => exact leaves_next (h.of_addsNothing { AddsNothing.refl s with })

/-- Settles O56: every command keeps it, since a task is held, and blocks are made present, only in RUNNING and
QUIESCING, and every other change of the controller state empties what the new state must not hold. -/
theorem stoppedStatesStayEmpty : Obligations.StoppedStatesStayEmpty := by
  unfold Obligations.StoppedStatesStayEmpty
  exact fun s t h e =>
    step_keeps (fun s rest h => h.of_addsNothing { AddsNothing.refl s with }) stoppedEmpty_exec h e

end Sys2Proof.Machine
end

section
/-! The commands that leave every station context as it is. -/
namespace Sys2Proof.Machine

/-! ## Shared operations -/

section stationFrames
variable (s : State)

@[simp] theorem State.announce_stations (n : ResultRingId) (due : ResultRing → Bool) :
    (s.announce n due).stations = s.stations := by
  unfold State.announce
  split
  · rfl
  · split <;> rfl

theorem State.foldl_stations {α : Type} {f : State → α → State} (h : ∀ s a, (f s a).stations = s.stations)
    (l : List α) : (l.foldl f s).stations = s.stations := by
  induction l generalizing s with
  | nil => rfl
  | cons a rest ih => rw [List.foldl_cons, ih, h]

@[simp] theorem State.announceAll_stations : s.announceAll.stations = s.stations :=
  State.foldl_stations s (fun s n => s.announce_stations n _) _

@[simp] theorem State.recordProduced_stations (n : ResultRingId) : (s.recordProduced n).stations = s.stations := by
  unfold State.recordProduced
  split
  · rfl
  · simp

@[simp] theorem State.freeSlot_stations (k : SlotId) : (s.freeSlot k).stations = s.stations := by
  unfold State.freeSlot
  split
  · rfl
  · dsimp only
    split <;> rfl

@[simp] theorem State.becomeQuiesced_stations : s.becomeQuiesced.stations = s.stations := rfl

@[simp] theorem State.afterLastTask_stations : s.afterLastTask.stations = s.stations := by
  unfold State.afterLastTask
  split
  · dsimp only
    split <;> simp
  · rfl

theorem State.endDone_stations {s t : State} {kind : TransferKind} {e : Nat} (h : s.endDone kind e = some t) :
    t.stations = s.stations := by
  obtain ⟨x, -, -, m, rfl, -⟩ := State.endDone_eq_some h
  rfl

theorem State.endFailed_stations {s t : State} {kind : TransferKind} {e : Nat} (h : s.endFailed kind e = some t) :
    t.stations = s.stations := by
  obtain ⟨x, -, m, d, rfl, -⟩ := State.endFailed_eq_some h
  rfl

@[simp] theorem State.halt_stations (why : HaltCause) : (s.halt why).stations = s.stations := by
  by_cases h : Halts s
  · obtain ⟨m, d, e, -⟩ := State.halt_spec h why
    rw [e]
    rfl
  · rw [State.halt_of_not h]

theorem State.beginStartUp_stations : s.beginStartUp.stations = s.stations := by
  unfold State.beginStartUp
  dsimp only
  split
  · rfl
  · rw [State.halt_stations]

theorem State.beginQuiesce_stations : s.beginQuiesce.stations = s.stations := by
  unfold State.beginQuiesce
  split <;> rfl

theorem State.completeStartUp_stations (u : Setup) : (s.completeStartUp u).stations = s.stations := by
  rw [State.completeStartUp, apply_ite State.stations]
  exact ite_self _

theorem State.postWork_stations (value : Register) : (s.postWork value).stations = s.stations := by
  unfold State.postWork
  split
  · rfl
  · split
    · rfl
    · split <;> rfl

theorem State.executing_stations (k : SlotId) (kind : Nat) {act : Task → Block64 → State}
    (h : ∀ t r, (act t r).stations = s.stations) : (s.executing k kind act).stations = s.stations := by
  rcases s.executing_cases k kind act with e | ⟨t, r, -, e⟩
  · rw [e]
  · rw [e, h]

end stationFrames

/-! ## The commands -/

/-- The commands that no rule lets change a station context: ring commands, staging commands but for a commit and a
discard, QUERY_DEVICE, READ_STATION, takes and the ends of transfers but for a result write's, and the link's events. -/
def leavesStations : Instr → Bool
  | .queryDevice _ | .createWorkRing _ | .deleteWorkRing _ | .createResultRing _ | .deleteResultRing _ | .readStation _
  | .stageOpen _ | .stagePut _ | .badKind _ | .recordUnreadable _ | .causeClear _ | .maskWrite _ | .linkDown
  | .completionTimeout _ _ | .take | .recordReadDone _ _ _ | .recordReadFault _ _ | .gridReadDone _ _ _
  | .gridReadFault _ _ | .snapshotWriteDone _ _ | .snapshotWriteFault _ _ | .resultWrite _ | .resultWriteFault _ _ _
  | .writebackFault _ _ | .setupReadDone _ _ | .setupReadFault _ | .writebackZeroingDone _ | .writebackZeroingFault _
  | .deleteDrainEnd _ | .writebackDone _ _ | .linkUp | .configurationSpaceWrite _ => true
  | _ => false

section commands
variable (s : State)

theorem execRecordReadDone_stations (k : SlotId) (r : Block64) (e : Nat) :
    Leaves (execRecordReadDone k r s e) fun t => t.stations = s.stations := by
  unfold execRecordReadDone
  refine leaves_next ?_
  split
  · rfl
  · split
    · split
      · rfl
      · next hs => simpa using State.endDone_stations hs
    all_goals rfl

theorem execRecordReadFault_stations (k : SlotId) (e : Nat) :
    Leaves (execRecordReadFault k s e) fun t => t.stations = s.stations := by
  unfold execRecordReadFault
  refine leaves_next ?_
  split
  · rfl
  · split
    · split
      · rfl
      · next hs =>
        rw [State.advanceWritten_stations]
        split <;> simpa using State.endFailed_stations hs
    all_goals rfl

theorem execGridReadDone_stations (k : SlotId) (data : List Byte) (e : Nat) :
    Leaves (execGridReadDone k data s e) fun t => t.stations = s.stations := by
  unfold execGridReadDone
  refine leaves_next ?_
  split
  · rfl
  · split
    · split
      · rfl
      · next hs =>
        split
        · simpa using State.endDone_stations hs
        · rfl
    all_goals rfl

theorem execGridReadFault_stations (k : SlotId) (e : Nat) :
    Leaves (execGridReadFault k s e) fun t => t.stations = s.stations := by
  unfold execGridReadFault
  refine leaves_next ?_
  split
  · rfl
  · split
    · split
      · rfl
      · next hs => simpa using State.endFailed_stations hs
    all_goals rfl

theorem execSnapshotWriteDone_stations (k : SlotId) (e : Nat) :
    Leaves (execSnapshotWriteDone k s e) fun t => t.stations = s.stations := by
  unfold execSnapshotWriteDone
  refine leaves_next ?_
  split
  · rfl
  · next hs => exact State.endDone_stations hs

theorem execSnapshotWriteFault_stations (k : SlotId) (e : Nat) :
    Leaves (execSnapshotWriteFault k s e) fun t => t.stations = s.stations := by
  unfold execSnapshotWriteFault
  refine leaves_next ?_
  split
  · rfl
  · next hs => simpa using State.endFailed_stations hs

theorem execResultWrite_stations (k : SlotId) : Leaves (execResultWrite k s) fun t => t.stations = s.stations := by
  unfold execResultWrite
  refine leaves_next ?_
  split
  · rfl
  · split
    · split
      · rfl
      · split
        · rfl
        · split <;> rfl
    all_goals rfl

theorem execResultWriteFault_stations (n : ResultRingId) (i : RingIndex) (e : Nat) :
    Leaves (execResultWriteFault n i s e) fun t => t.stations = s.stations := by
  unfold execResultWriteFault
  refine leaves_next ?_
  split
  · rfl
  · split
    · rfl
    · next hs => rw [State.halt_stations, State.endFailed_stations hs]

theorem execWritebackDone_stations (place : Place) (e : Nat) :
    Leaves (execWritebackDone place s e) fun t => t.stations = s.stations := by
  unfold execWritebackDone
  refine leaves_next ?_
  split
  · rfl
  · next hs => exact State.endDone_stations hs

theorem execWritebackFault_stations (place : Place) (e : Nat) :
    Leaves (execWritebackFault place s e) fun t => t.stations = s.stations := by
  unfold execWritebackFault
  refine leaves_next ?_
  split
  · rfl
  · next hs => rw [State.halt_stations, State.endFailed_stations hs]

theorem execSetupReadDone_stations (block : Block64) (e : Nat) :
    Leaves (execSetupReadDone block s e) fun t => t.stations = s.stations := by
  unfold execSetupReadDone
  refine leaves_next ?_
  split
  · next hs =>
    split
    · simpa using State.endDone_stations hs
    · rw [State.halt_stations, State.endDone_stations hs]
  · rfl

theorem execSetupReadFault_stations (e : Nat) :
    Leaves (execSetupReadFault s e) fun t => t.stations = s.stations := by
  unfold execSetupReadFault
  refine leaves_next ?_
  split
  · rfl
  · next hs => rw [State.halt_stations, State.endFailed_stations hs]

theorem execWritebackZeroingDone_stations (e : Nat) :
    Leaves (execWritebackZeroingDone s e) fun t => t.stations = s.stations := by
  unfold execWritebackZeroingDone
  refine leaves_next ?_
  split
  · next hs _ => rw [State.completeStartUp_stations, State.endDone_stations hs]
  · rfl

theorem execWritebackZeroingFault_stations (e : Nat) :
    Leaves (execWritebackZeroingFault s e) fun t => t.stations = s.stations := by
  unfold execWritebackZeroingFault
  refine leaves_next ?_
  split
  · rfl
  · next hs => rw [State.halt_stations, State.endFailed_stations hs]

theorem execTake_stations : Leaves (execTake s) fun t => t.stations = s.stations := by
  unfold execTake
  refine leaves_next ?_
  split
  · split
    · rfl
    · split <;> rfl
  · rfl

theorem execBadKind_stations (k : SlotId) : Leaves (execBadKind k s) fun t => t.stations = s.stations := by
  unfold execBadKind
  refine leaves_next ?_
  split
  · split <;> rfl
  · rfl

theorem execRecordUnreadable_stations (k : SlotId) :
    Leaves (execRecordUnreadable k s) fun t => t.stations = s.stations := by
  unfold execRecordUnreadable
  refine leaves_next ?_
  split <;> rfl

theorem State.reached_stations {act : State → State} (h : (act s).stations = s.stations) :
    (s.reached act).stations = s.stations := by
  unfold State.reached
  split
  · exact h
  · rfl

end commands

theorem exec_stations {i : Instr} (h : leavesStations i = true) (s : State) :
    Leaves (exec i s) fun t => t.stations = s.stations := by
  cases i with
  | queryDevice k => exact leaves_next (s.executing_stations k _ fun t r => by split <;> rfl)
  | createWorkRing k => exact leaves_next (s.executing_stations k _ fun t r => by split <;> rfl)
  | deleteWorkRing k => exact leaves_next (s.executing_stations k _ fun t r => by split <;> simp)
  | createResultRing k => exact leaves_next (s.executing_stations k _ fun t r => by split <;> rfl)
  | deleteResultRing k => exact leaves_next (s.executing_stations k _ fun t r => by split <;> rfl)
  | readStation k => exact leaves_next (s.executing_stations k _ fun t r => by split <;> rfl)
  | stageOpen k => exact leaves_next (s.executing_stations k _ fun t r => by split <;> rfl)
  | stagePut k => exact leaves_next (s.executing_stations k _ fun t r => by split <;> rfl)
  | badKind k => exact execBadKind_stations s k
  | recordUnreadable k => exact execRecordUnreadable_stations s k
  | causeClear v => exact leaves_next (s.reached_stations rfl)
  | maskWrite v => exact leaves_next (s.reached_stations rfl)
  | linkDown => exact leaves_next rfl
  | completionTimeout read e => exact leaves_next rfl
  | take => exact execTake_stations s
  | recordReadDone k r e => exact execRecordReadDone_stations s k r e
  | recordReadFault k e => exact execRecordReadFault_stations s k e
  | gridReadDone k data e => exact execGridReadDone_stations s k data e
  | gridReadFault k e => exact execGridReadFault_stations s k e
  | snapshotWriteDone k e => exact execSnapshotWriteDone_stations s k e
  | snapshotWriteFault k e => exact execSnapshotWriteFault_stations s k e
  | resultWrite k => exact execResultWrite_stations s k
  | resultWriteFault n i e => exact execResultWriteFault_stations s n i e
  | writebackFault place e => exact execWritebackFault_stations s place e
  | setupReadDone block e => exact execSetupReadDone_stations s block e
  | setupReadFault e => exact execSetupReadFault_stations s e
  | writebackZeroingDone e => exact execWritebackZeroingDone_stations s e
  | writebackZeroingFault e => exact execWritebackZeroingFault_stations s e
  | deleteDrainEnd k => exact leaves_next (s.endDeleteDrain_stations k)
  | writebackDone place e => exact execWritebackDone_stations s place e
  | linkUp => exact leaves_next rfl
  | configurationSpaceWrite config => exact leaves_next rfl
  | _ => cases h

end Sys2Proof.Machine
end

section
/-! The profile of every OPEN or CLOSING station stays consistent (R97): it is installed only where the nine relations
were tested (R5, R107, R110), and every other event keeps it. -/
namespace Sys2Proof.Machine

theorem consistent_iff (p : Profile) : p.consistent = true ↔ ConsistentProfile p := by
  simp only [Profile.consistent, Profile.relations, List.all_cons, List.all_nil, id, Bool.and_eq_true,
    decide_eq_true_eq,
    Bool.and_true]
  exact ⟨fun ⟨h1, h2, h3, h4, h5, h6, h7, h8, h9⟩ => ⟨h1, h2, h3, h4, h5, h6, h7, h8, h9⟩,
    fun ⟨h1, h2, h3, h4, h5, h6, h7, h8, h9⟩ => ⟨h1, h2, h3, h4, h5, h6, h7, h8, h9⟩⟩

/-! ## What an evaluation does to the profile -/

section profiles
variable (c : Station) (f : Frame)

@[simp] theorem Station.raise_profile (k : Condition) : (c.raise k).profile = c.profile := rfl

@[simp] theorem Station.raiseAll_profile (ks : List Condition) : (c.raiseAll ks).profile = c.profile := by
  induction ks generalizing c with
  | nil => rfl
  | cons k rest ih => exact ih (c.raise k)

@[simp] theorem Station.record_profile (mean comp : Option Nat) (clip : Nat) :
    (c.record f mean comp clip).profile = c.profile := rfl

@[simp] theorem Station.trim_profile : (c.trim f).profile = c.profile := rfl

@[simp] theorem Station.push_profile (x : Frame) (e : Entry) : (c.push x e).profile = c.profile := by
  unfold Station.push
  split <;> rfl

@[simp] theorem gapStage_profile : (gapStage f c).station.profile = c.profile := by
  unfold gapStage
  split
  · rfl
  · split
    · rfl
    · split <;> rfl

@[simp] theorem enter_profile (exit : LoopState) : (enter exit c).profile = c.profile := by
  unfold enter
  split
  · rfl
  · simp

@[simp] theorem moveTo_profile (product : Nat) : (moveTo f product c).station.profile = c.profile := by
  unfold moveTo
  dsimp only
  split
  · rfl
  · simp

@[simp] theorem loopStage_profile (veto : Bool) (mc : Nat) : (loopStage f veto mc c).station.profile = c.profile := by
  unfold loopStage
  split <;> simp

theorem evaluateLoop_profile (m : Metered) (mean mc : Nat) (sets : Vector StagingSet 8) :
    (evaluateLoop f m mean mc c sets).station.profile = c.profile := by
  unfold evaluateLoop
  split
  · rfl
  · dsimp only
    split <;> simp

theorem evaluateGrid_profile (g : GridSource) (sets : Vector StagingSet 8) :
    (evaluateGrid f g c sets).station.profile = c.profile := by
  unfold evaluateGrid
  dsimp only
  split
  · rfl
  · split
    · rfl
    · rw [evaluateLoop_profile, Station.trim_profile]

end profiles

/-- Landing a set installs its merge only where that is consistent (R110). -/
theorem landItems_consistent (items : List Item) {c : Station} (h : ConsistentProfile c.profile) :
    ConsistentProfile (landItems items c).profile := by
  unfold landItems
  dsimp only
  split
  · next hm => exact (consistent_iff _).mp hm
  · exact h

theorem applySets_consistent (f : Frame) (ids : List SetId) {c : Station} (h : ConsistentProfile c.profile)
    (sets : Vector StagingSet 8) : ConsistentProfile (applySets f ids c sets).1.profile := by
  induction ids generalizing c sets with
  | nil => exact h
  | cons id rest ih =>
    unfold applySets
    split
    · split
      · exact ih h sets
      · next items _ frame _ _ =>
        have landed : ConsistentProfile { landItems items c with armed := c.armed.erase id }.profile :=
          landItems_consistent items h
        exact ih landed _
    · exact ih h sets
    · exact ih h sets

/-- A MEASURE changes the profile only by landing armed sets (R110, R112). -/
theorem evaluate_consistent (f : Frame) (g : GridSource) {c : Station} (h : ConsistentProfile c.profile)
    (sets : Vector StagingSet 8) : ConsistentProfile (evaluate f g c sets).station.profile := by
  unfold evaluate
  split
  · exact h
  · split
    · exact h
    · dsimp only
      rw [evaluateGrid_profile, Station.raiseAll_profile]
      exact applySets_consistent f _ (by rwa [gapStage_profile]) sets

/-! ## Sound profiles through the shared operations -/

/-- The station of a context, if it holds one, has a consistent profile. -/
def Context.Consistent (x : Context) : Prop := ∀ c, x.station = some c → ConsistentProfile c.profile

theorem Context.consistent_free : Context.free.Consistent := by
  intro c h
  cases h

theorem Context.consistent_opened {c : Station} : (Context.opened c).Consistent ↔ ConsistentProfile c.profile :=
  ⟨fun h => h c rfl, fun h d e => by cases e; exact h⟩

theorem Context.consistent_closing {c : Station} : (Context.closing c).Consistent ↔ ConsistentProfile c.profile :=
  ⟨fun h => h c rfl, fun h d e => by cases e; exact h⟩

theorem ProfilesSound.context {s : State} (h : ProfilesSound s) (id : StationId) : (s.stations[id]).Consistent := h id

theorem ProfilesSound.opened {s : State} (h : ProfilesSound s) {id : StationId} {c : Station}
    (hc : s.stations[id] = .opened c) : ConsistentProfile c.profile := h id c (by rw [hc]; rfl)

theorem ProfilesSound.of_stations {s t : State} (h : ProfilesSound s) (e : t.stations = s.stations) :
    ProfilesSound t := by
  unfold ProfilesSound
  rw [e]
  exact h

/-- One context is written, with a consistent profile or FREE. -/
theorem ProfilesSound.of_set {s t : State} (h : ProfilesSound s) {id : StationId} {x : Context}
    (e : t.stations = s.stations.set id x) (hx : x.Consistent) : ProfilesSound t := by
  intro j c hc
  rw [e, get_set] at hc
  split at hc
  · exact hx c hc
  · exact h j c hc

theorem ProfilesSound.of_set_opened {s t : State} (h : ProfilesSound s) {id : StationId} {c : Station}
    (e : t.stations = s.stations.set id (.opened c)) (hc : ConsistentProfile c.profile) : ProfilesSound t :=
  h.of_set e (Context.consistent_opened.mpr hc)

theorem foldl_keeps {α : Type} {P : State → Prop} {f : State → α → State} (step : ∀ s a, P s → P (f s a)) (l : List α)
    {s : State} (h : P s) : P (l.foldl f s) := by
  induction l generalizing s with
  | nil => exact h
  | cons a rest ih => exact ih (step s a h)

theorem ProfilesSound.emitNotice {s : State} (h : ProfilesSound s) (id : StationId) :
    ProfilesSound (s.emitNotice id) := by
  rcases s.emitNotice_cases id with ⟨e, -⟩ | ⟨c, q, hc, -, -, -, -, e⟩
  · rw [e]
    exact h
  · have sound := h.opened hc
    rw [e]
    exact h.of_set_opened rfl sound

theorem ProfilesSound.offerSlots {s : State} (h : ProfilesSound s) (n : ResultRingId) :
    ProfilesSound (s.offerSlots n) := by
  refine foldl_keeps (fun s id h => ?_) _ h
  split
  · exact h.emitNotice id
  · exact h

theorem ProfilesSound.resume {s : State} (h : ProfilesSound s) : ProfilesSound s.resume :=
  foldl_keeps (fun _ n h => h.offerSlots n) _ (h.of_stations rfl)

theorem ProfilesSound.endCloseDrain {s : State} (h : ProfilesSound s) (k : SlotId) :
    ProfilesSound (s.endCloseDrain k) := by
  rcases s.endCloseDrain_cases k with e | ⟨t, r, id, c, -, -, -, -, e⟩
  · rw [e]
    exact h
  · rw [e]
    exact h.of_set rfl Context.consistent_free

theorem ProfilesSound.settleDrains {s : State} (h : ProfilesSound s) : ProfilesSound s.settleDrains :=
  foldl_keeps (fun _ k h => (h.endCloseDrain k).of_stations (State.endDeleteDrain_stations _ k)) _ h

theorem Context.Consistent.update {x : Context} (h : x.Consistent) {f : Station → Station}
    (hf : ∀ c, (f c).profile = c.profile) : (x.update f).Consistent := by
  intro c hc
  cases x with
  | free => cases hc
  | opened d => cases hc; rw [hf]; exact h d rfl
  | closing d => cases hc; rw [hf]; exact h d rfl

theorem ProfilesSound.noticeWritten {s : State} (h : ProfilesSound s) (id : StationId) (n : ResultRingId) :
    ProfilesSound (s.noticeWritten id n) := by
  have marked : ProfilesSound
      (s.setStation id (s.stations[id].update fun c => { c with noticeInFlight := s.noticePending id })) :=
    h.of_set rfl ((h.context id).update fun _ => rfl)
  unfold State.noticeWritten
  dsimp only
  split
  · exact marked.of_stations (State.announce_stations _ n _)
  · exact marked

/-! ## The register window and the resets -/

theorem ProfilesSound.teardown (s : State) : ProfilesSound s.teardown := by
  obtain ⟨m, d, e, -⟩ := s.teardown_spec
  intro id c hc
  rw [e] at hc
  simp [tornDown, Context.station] at hc

theorem ProfilesSound.enabledWrite {s : State} (h : ProfilesSound s) (before : Bool) :
    ProfilesSound (s.enabledWrite before) := by
  unfold State.enabledWrite
  split
  · exact h.of_stations s.beginStartUp_stations
  · split
    · exact h.of_stations s.beginQuiesce_stations
    · exact h
  · split
    · exact h.resume
    · exact h
  · split
    · exact h.resume
    · exact h
  · exact h
  · exact h

theorem ProfilesSound.writeCtrl {s : State} (h : ProfilesSound s) (value : Register) :
    ProfilesSound (s.writeCtrl value) := by
  have stored : ProfilesSound { s with quiesceBit := ctrlQuiesce value } := h.of_stations rfl
  unfold State.writeCtrl
  split
  · exact (ProfilesSound.teardown s).of_stations rfl
  · dsimp only
    split
    · exact stored.enabledWrite _
    · split
      · exact stored
      · exact .teardown _

theorem ProfilesSound.releaseResult {s : State} (h : ProfilesSound s) (value : Register) :
    ProfilesSound (s.releaseResult value) := by
  have rejected : ∀ why, ProfilesSound (s.reject value why) := fun why => h.of_stations rfl
  unfold State.releaseResult
  split
  · exact rejected _
  · split
    · exact rejected _
    · split
      · exact rejected _
      · split
        · exact h
        · exact (h.of_stations (State.setResultRing_stations ..)).offerSlots _

theorem ProfilesSound.writePost {s : State} (h : ProfilesSound s) (value : Register) :
    ProfilesSound (s.writePost value) := by
  unfold State.writePost
  split
  · exact h.of_stations (s.postWork_stations value)
  · split
    · exact h.releaseResult value
    · exact h.of_stations rfl

theorem ProfilesSound.reached {s : State} (h : ProfilesSound s) {act : State → State} (hact : ProfilesSound (act s)) :
    ProfilesSound (s.reached act) := by
  unfold State.reached
  split
  · exact hact
  · exact h

theorem ProfilesSound.writeRegister {s : State} (h : ProfilesSound s) (offset : BitVec 12) (value : Register) :
    ProfilesSound (s.writeRegister offset value) := by
  unfold State.writeRegister
  split
  · exact h.writeCtrl value
  · exact h.of_stations rfl
  · exact h.of_stations rfl
  · exact h.writePost value
  · exact h.of_stations rfl
  · exact h.of_stations rfl
  · exact h

/-! ## The end of a result write -/

theorem ProfilesSound.resultWriteDone {s : State} (h : ProfilesSound s) (n : ResultRingId) (i : RingIndex) (e : Nat) :
    Leaves (execResultWriteDone n i s e) ProfilesSound := by
  unfold execResultWriteDone
  refine leaves_next ?_
  split
  · exact h
  · split
    · exact h
    · next s' hs =>
      have produced : ProfilesSound (s'.recordProduced n) :=
        h.of_stations ((s'.recordProduced_stations n).trans (State.endDone_stations hs))
      dsimp only
      split
      · next k _ _ _ =>
        have freed := produced.of_stations (State.freeSlot_stations _ k)
        exact (freed.of_stations (State.afterLastTask_stations _)).settleDrains
      · next id _ _ _ => exact (produced.noticeWritten id n).settleDrains
      · exact produced

/-! ## Executions -/

theorem ProfilesSound.executing {s : State} (h : ProfilesSound s) (k : SlotId) (kind : Nat)
    {act : Task → Block64 → State} (hact : ∀ t r, ProfilesSound (act t r)) : ProfilesSound (s.executing k kind act) := by
  rcases s.executing_cases k kind act with e | ⟨t, r, -, e⟩
  · rw [e]
    exact h
  · rw [e]
    exact hact t r

/-- The station that passes the check of a home-ring command is OPEN (R3). -/
theorem State.homeCheck_opened {s : State} {t : Task} {r : Block64} {fields : Bool} {id : StationId} {c : Station}
    (h : s.homeCheck t r fields = .ok (id, c)) : s.stations[id] = .opened c := by
  unfold State.homeCheck at h
  split at h
  · cases h
  · split at h
    · cases h
    · split at h
      · cases h
      · split at h
        · cases h
        · next hc =>
          split at h
          · cases h
          · cases h; exact hc
        · split at h <;> cases h

theorem ProfilesSound.homeCommand {s : State} (h : ProfilesSound s) (k : SlotId) (kind : Nat) (fields : Block64 → Bool)
    {act : Block64 → Station → Station} (hact : ∀ r c, (act r c).profile = c.profile) :
    ProfilesSound (s.homeCommand k kind fields act) := by
  refine h.executing k kind fun t r => ?_
  split
  · exact h.of_stations rfl
  · next id c hc =>
    refine h.of_set_opened rfl ?_
    rw [hact]
    exact h.opened (State.homeCheck_opened hc)

theorem Station.thaw_profile (c : Station) : c.thaw.profile = c.profile := by
  unfold Station.thaw
  split <;> rfl

theorem Station.setActuators_profile (f : Frame) (i g l : Nat) (c : Station) :
    (c.setActuators f i g l).profile = c.profile := by
  unfold Station.setActuators
  dsimp only
  split
  · rfl
  · rw [enter_profile]

theorem ProfilesSound.measure {s : State} (h : ProfilesSound s) (k : SlotId) :
    Leaves (execMeasure k s) ProfilesSound := by
  refine leaves_next (h.executing k _ fun t r => ?_)
  split
  · exact h.of_stations rfl
  · next id c hc =>
    have before := h.opened (State.homeCheck_opened hc)
    have sound := evaluate_consistent (recordFrame r) (gridSource r t.grid) before s.sets
    exact h.of_set_opened rfl sound

theorem ProfilesSound.openStation {s : State} (h : ProfilesSound s) (k : SlotId) :
    Leaves (execOpenStation k s) ProfilesSound := by
  refine leaves_next (h.executing k _ fun t r => ?_)
  split
  · exact h.of_stations rfl
  · next q items _ =>
    dsimp only
    split
    · exact h.of_stations rfl
    · next hp =>
      have sound : ConsistentProfile (Profile.defaults.merge items) := (consistent_iff _).mp (by simpa using hp)
      refine h.of_set_opened (id := q.id) (c := openedStation q r (Profile.defaults.merge items)) ?_ sound
      simp

theorem State.closeCheck_opened {s : State} {t : Task} {r : Block64} {id : StationId} {c : Station}
    (h : s.closeCheck t r = .ok (id, c)) : s.stations[id] = .opened c := by
  unfold State.closeCheck at h
  split at h
  · cases h
  · split at h
    · cases h
    · split at h
      · cases h
      · next hc => cases h; exact hc
      · cases h

theorem ProfilesSound.closeStation {s : State} (h : ProfilesSound s) (k : SlotId) :
    Leaves (execCloseStation k s) ProfilesSound := by
  refine leaves_next (h.executing k _ fun t r => ?_)
  split
  · exact h.of_stations rfl
  · next id c hc =>
    refine ProfilesSound.endCloseDrain ?_ k
    exact h.of_set rfl (Context.consistent_closing.mpr (h.opened (State.closeCheck_opened hc)))

theorem State.commitCheck_opened {s : State} {t : Task} {r : Block64} {q : CommitRequest}
    (h : s.commitCheck t r = .ok q) : s.stations[q.id] = .opened q.station := by
  unfold State.commitCheck at h
  split at h
  · split at h
    · cases h
    · split at h
      · cases h
      · split at h
        · cases h
        · next hc =>
          split at h
          · cases h
          · cases h; exact hc
        · split at h <;> cases h
  · cases h

theorem ProfilesSound.commitAtFrame {s : State} (h : ProfilesSound s) (k : SlotId) (t : Task) (r : Block64)
    {q : CommitRequest} (hq : ConsistentProfile q.station.profile) : ProfilesSound (s.commitAtFrame k t r q) := by
  unfold State.commitAtFrame
  dsimp only
  split
  · exact h.of_stations rfl
  · split
    · exact h.of_stations rfl
    · exact h.of_set_opened rfl hq

theorem ProfilesSound.commitImmediate {s : State} (h : ProfilesSound s) (k : SlotId) (t : Task) (r : Block64)
    (q : CommitRequest) : ProfilesSound (s.commitImmediate k t r q) := by
  unfold State.commitImmediate
  dsimp only
  split
  · exact h.of_stations rfl
  · next hp =>
    have sound : ConsistentProfile (q.station.profile.merge q.items) := (consistent_iff _).mp (by simpa using hp)
    exact h.of_set_opened rfl sound

theorem ProfilesSound.stageCommit {s : State} (h : ProfilesSound s) (k : SlotId) :
    Leaves (execStageCommit k s) ProfilesSound := by
  refine leaves_next (h.executing k _ fun t r => ?_)
  split
  · exact h.of_stations rfl
  · next q hq =>
    split
    · exact h.commitAtFrame k t r (h.opened (State.commitCheck_opened hq))
    · exact h.commitImmediate k t r q

theorem ProfilesSound.stageDiscard {s : State} (h : ProfilesSound s) (k : SlotId) :
    Leaves (execStageDiscard k s) ProfilesSound := by
  refine leaves_next (h.executing k _ fun t r => ?_)
  split
  · exact h.of_stations rfl
  · split
    · exact h.of_stations rfl
    · exact h.of_stations rfl
    · split
      · exact h.of_stations rfl
      · exact h.of_stations rfl
      · next c hc =>
        have sound := h.opened hc
        exact h.of_set_opened rfl sound

/-! ## Every command -/

theorem profilesSound_exec (i : Instr) (s : State) (h : ProfilesSound s) : Leaves (exec i s) ProfilesSound := by
  cases hi : leavesStations i with
  | true => exact fun t e => h.of_stations (exec_stations hi s t e)
  | false =>
    cases i with
    | openStation k => exact h.openStation k
    | closeStation k => exact h.closeStation k
    | measure k => exact h.measure k
    | freeze k => exact leaves_next (h.homeCommand _ _ _ fun _ _ => rfl)
    | thaw k => exact leaves_next (h.homeCommand _ _ _ fun _ c => c.thaw_profile)
    | reseek k => exact leaves_next (h.homeCommand _ _ _ fun _ _ => rfl)
    | setActuators k => exact leaves_next (h.homeCommand _ _ _ fun _ c => c.setActuators_profile ..)
    | ackNotice k => exact leaves_next (h.homeCommand _ _ _ fun _ _ => rfl)
    | stageCommit k => exact h.stageCommit k
    | stageDiscard k => exact h.stageDiscard k
    | softReset v => exact leaves_next (h.reached (h.writeCtrl v))
    | startUp v => exact leaves_next (h.reached (h.writeCtrl v))
    | enableOff v => exact leaves_next (h.reached (h.writeCtrl v))
    | quiesce v => exact leaves_next (h.reached (h.writeCtrl v))
    | quiesceClear v => exact leaves_next (h.reached (h.writeCtrl v))
    | postWork v => exact leaves_next (h.reached (h.writePost v))
    | releaseResult v => exact leaves_next (h.reached (h.writePost v))
    | badOperation v => exact leaves_next (h.reached (h.writePost v))
    | registerWrite offset bytes v =>
      refine leaves_next (h.reached ?_)
      split
      · exact h.writeRegister offset v
      · exact h
    | powerOnReset => exact leaves_next ((ProfilesSound.teardown s).of_stations rfl)
    | pinReset => exact leaves_next ((ProfilesSound.teardown s).of_stations rfl)
    | resultWriteDone n i e => exact h.resultWriteDone n i e
    | closeDrainEnd k => exact leaves_next (h.endCloseDrain k)
    | noticeEmission id => exact leaves_next (h.emitNotice id)
    | _ => cases hi

/-- Settles O58: a station's profile is installed only after the test of the nine relations, and kept by all else. -/
theorem profilesStayConsistent : Obligations.ProfilesStayConsistent := by
  unfold Obligations.ProfilesStayConsistent
  exact fun s t h e => step_keeps (fun s rest h => h.of_stations rfl) profilesSound_exec h e

end Sys2Proof.Machine
end

section
/-! Drains: the end of a close's and of a deletion's drain, their waiting, and the settling of all drains (R9, R10,
R133, R138). -/
namespace Sys2Proof.Machine

/-! ## The sets a drain's end frees -/

theorem freeSets_eq (ids : List SetId) (sets : Vector StagingSet 8) :
    freeSets ids sets = Vector.ofFn fun i => if i ∈ ids then .free else sets[i] :=
  bank_ext fun i => by rw [get_freeSets, get_ofFn]

theorem StagingSet.openOwnedBy_eq (x : StagingSet) (n : WorkRingId) :
    x.openOwnedBy n = (x.owner == some n && x.state == .opened) := by
  cases x with
  | free => rfl
  | opened owner items => exact (Bool.and_true _).symm
  | armed owner items id frame => exact (Bool.and_false _).symm

theorem StagingSet.openOwnedBy_iff (x : StagingSet) (n : WorkRingId) :
    x.openOwnedBy n = true ↔ x.owner = some n ∧ x.state = .opened := by
  rw [StagingSet.openOwnedBy_eq, Bool.and_eq_true, beq_iff_eq, beq_iff_eq]

theorem toList_eq_map_finRange {α : Type} {n : Nat} (v : Vector α n) :
    v.toList = (List.finRange n).map fun i => v[i] := by
  refine List.ext_getElem (by simp) fun i h1 h2 => ?_
  simp

theorem ownedSets_length (sets : Vector StagingSet 8) (n : WorkRingId) :
    (sets.toList.filter (StagingSet.openOwnedBy n)).length =
      ((List.finRange 8).filter fun i => (sets[i]).owner == some n && (sets[i]).state == .opened).length := by
  rw [toList_eq_map_finRange, List.filter_map, List.length_map]
  exact congrArg List.length (List.filter_congr fun i _ => StagingSet.openOwnedBy_eq sets[i] n)

theorem freeOwned_eq (sets : Vector StagingSet 8) (n : WorkRingId) :
    mapBank (fun x => if x.openOwnedBy n then .free else x) sets =
      Vector.ofFn fun i => if (sets[i]).owner = some n ∧ (sets[i]).state = .opened then .free else sets[i] :=
  bank_ext fun i => by
    rw [get_mapBank, get_ofFn]
    exact if_congr (StagingSet.openOwnedBy_iff _ n) rfl rfl

/-! ## The end of one drain -/

section oneDrain
variable {s : State} {k : SlotId} {t : Task} {r : Block64}

theorem State.endCloseDrain_of_due {id : StationId} {c : Station} (ht : s.slots[k] = some t)
    (hp : t.phase = .drainWait r (.close id [])) (hc : s.stations[id] = .closing c) (hn : c.noticeInFlight = false) :
    s.endCloseDrain k = closedAs s k t r id c := by
  unfold State.endCloseDrain
  simp only [ht, hp, hc, hn, Bool.false_eq_true, if_false, freeSets_eq]
  rfl

theorem State.endCloseDrain_of_waiting {id : StationId} {c : Station} {recorded : List SlotId}
    (ht : s.slots[k] = some t) (hp : t.phase = .drainWait r (.close id recorded)) (hc : s.stations[id] = .closing c)
    (hw : recorded ≠ [] ∨ c.noticeInFlight = true) : s.endCloseDrain k = s := by
  rcases s.endCloseDrain_cases k with e | ⟨t', r', id', c', ht', hp', hc', hn, -⟩
  · exact e
  · rw [ht] at ht'
    cases ht'
    rw [hp] at hp'
    cases hp'
    rw [hc] at hc'
    cases hc'
    simp [hn] at hw

theorem State.endDeleteDrain_of_due {n : WorkRingId} {w : WorkRing} (ht : s.slots[k] = some t)
    (hp : t.phase = .drainWait r (.delete n)) (hw : s.workRings[n] = some w) (h0 : w.inFlight = 0) :
    s.endDeleteDrain k = deletedAs s k t r n w := by
  unfold State.endDeleteDrain
  simp only [ht, hp, hw, h0, if_true, freeOwned_eq, ownedSets_length]
  rfl

theorem State.endDeleteDrain_of_waiting {n : WorkRingId} {w : WorkRing} (ht : s.slots[k] = some t)
    (hp : t.phase = .drainWait r (.delete n)) (hw : s.workRings[n] = some w) (h0 : w.inFlight ≠ 0) :
    s.endDeleteDrain k = s := by
  rcases s.endDeleteDrain_cases k with e | ⟨t', r', n', w', ht', hp', hw', h0', -⟩
  · exact e
  · rw [ht] at ht'
    cases ht'
    rw [hp] at hp'
    cases hp'
    rw [hw] at hw'
    cases hw'
    exact absurd h0' h0

/-- A slot whose task deletes a ring has no close drain. -/
theorem State.endCloseDrain_of_delete {n : WorkRingId} (ht : s.slots[k] = some t)
    (hp : t.phase = .drainWait r (.delete n)) : s.endCloseDrain k = s := by
  rcases s.endCloseDrain_cases k with e | ⟨t', r', id, c, ht', hp', -⟩
  · exact e
  · rw [ht] at ht'
    cases ht'
    rw [hp] at hp'
    cases hp'

/-- A slot whose task closes a station has no delete drain. -/
theorem State.endDeleteDrain_of_close {id : StationId} {recorded : List SlotId} (ht : s.slots[k] = some t)
    (hp : t.phase = .drainWait r (.close id recorded)) : s.endDeleteDrain k = s := by
  rcases s.endDeleteDrain_cases k with e | ⟨t', r', n, w, ht', hp', -⟩
  · exact e
  · rw [ht] at ht'
    cases ht'
    rw [hp] at hp'
    cases hp'

end oneDrain

theorem State.endCloseDrain_of_not_draining {s : State} {k : SlotId} (h : ∀ u ∈ s.slots[k], u.draining = false) :
    s.endCloseDrain k = s := by
  rcases s.endCloseDrain_cases k with e | ⟨t, r, id, c, ht, hp, -⟩
  · exact e
  · exact absurd (h t ht) (by simp [Task.draining_of_phase hp])

theorem State.endDeleteDrain_of_not_draining {s : State} {k : SlotId} (h : ∀ u ∈ s.slots[k], u.draining = false) :
    s.endDeleteDrain k = s := by
  rcases s.endDeleteDrain_cases k with e | ⟨t, r, n, w, ht, hp, -⟩
  · exact e
  · exact absurd (h t ht) (by simp [Task.draining_of_phase hp])

theorem answered_not_draining (t : Task) (r : Block64) (status : Status) (body : Body) :
    (answered t r status body).draining = false := rfl

/-- The slot of an ended close holds no drain any more. -/
theorem closedAs_not_draining (s : State) (k : SlotId) (t : Task) (r : Block64) (id : StationId) (c : Station) :
    ∀ u ∈ (closedAs s k t r id c).slots[k], u.draining = false := by
  intro u hu
  rw [closedAs, get_set, if_pos rfl] at hu
  cases hu
  exact answered_not_draining ..

theorem deletedAs_not_draining (s : State) (k : SlotId) (t : Task) (r : Block64) (n : WorkRingId) (w : WorkRing) :
    ∀ u ∈ (deletedAs s k t r n w).slots[k], u.draining = false := by
  intro u hu
  rw [deletedAs, get_set, if_pos rfl] at hu
  cases hu
  exact answered_not_draining ..

/-- Settles O26: the end of one drain, as the settling ends it too, in an event of its own. -/
theorem drainsEnd : Obligations.DrainsEnd := by
  unfold Obligations.DrainsEnd
  refine ⟨fun s k t r id c recorded ht hp hc => ⟨fun h0 hn => ?_, fun hw => ?_⟩,
    fun s k t r n w ht hp hw => ⟨fun h0 => ⟨_, rfl, ?_⟩, fun h0 => ?_⟩⟩
  · subst h0
    exact congrArg _ (State.endCloseDrain_of_due ht hp hc hn)
  · exact congrArg _ (State.endCloseDrain_of_waiting ht hp hc hw)
  · exact congrArg _ (State.endDeleteDrain_of_due ht hp hw h0)
  · exact congrArg _ (State.endDeleteDrain_of_waiting ht hp hw h0)

/-! ## Settling every drain -/

/-- One slot's drains, as the settling ends them. -/
def State.settleSlot (s : State) (k : SlotId) : State := (s.endCloseDrain k).endDeleteDrain k

theorem State.settleDrains_eq (s : State) : s.settleDrains = (List.finRange 8).foldl State.settleSlot s := rfl

theorem DrainDue.of_endCloseDrain {s : State} {j k : SlotId} (h : DrainDue (s.endCloseDrain j) k) : DrainDue s k := by
  rcases s.endCloseDrain_cases j with e | ⟨t, r, id, c, -, -, -, -, e⟩
  · rwa [e] at h
  · rw [e] at h
    obtain ⟨u, r', hu, hd⟩ := h
    rw [get_set] at hu
    split at hu
    · cases hu
      rcases hd with ⟨_, _, hp, -⟩ | ⟨_, _, hp, -⟩ <;> cases hp
    · refine ⟨u, r', hu, hd.imp_left ?_⟩
      rintro ⟨m, d, hp, hm, hn⟩
      refine ⟨m, d, hp, ?_, hn⟩
      rw [get_set] at hm
      split at hm
      · cases hm
      · exact hm

theorem DrainDue.of_endDeleteDrain {s : State} {j k : SlotId} (h : DrainDue (s.endDeleteDrain j) k) : DrainDue s k := by
  rcases s.endDeleteDrain_cases j with e | ⟨t, r, n, w, -, -, -, -, e⟩
  · rwa [e] at h
  · rw [e] at h
    obtain ⟨u, r', hu, hd⟩ := h
    rw [get_set] at hu
    split at hu
    · cases hu
      rcases hd with ⟨_, _, hp, -⟩ | ⟨_, _, hp, -⟩ <;> cases hp
    · refine ⟨u, r', hu, hd.imp_right ?_⟩
      rintro ⟨m, v, hp, hm, h0⟩
      refine ⟨m, v, hp, ?_, h0⟩
      rw [get_set] at hm
      split at hm
      · cases hm
      · exact hm

/-- Settling one slot makes no drain due. -/
theorem DrainDue.of_settleSlot {s : State} {j k : SlotId} (h : DrainDue (s.settleSlot j) k) : DrainDue s k :=
  h.of_endDeleteDrain.of_endCloseDrain

theorem DrainDue.of_foldl_settleSlot (l : List SlotId) {s : State} {k : SlotId}
    (h : DrainDue (l.foldl State.settleSlot s) k) : DrainDue s k := by
  induction l generalizing s with
  | nil => exact h
  | cons j rest ih => exact (ih h).of_settleSlot

theorem not_drainDue_of_not_draining {s : State} {k : SlotId} (h : ∀ u ∈ s.slots[k], u.draining = false) :
    ¬DrainDue s k := by
  rintro ⟨t, r, ht, ⟨id, c, hp, -⟩ | ⟨n, w, hp, -⟩⟩ <;> exact absurd (h t ht) (by simp [Task.draining_of_phase hp])

/-- The slot that is settled has no due drain left. -/
theorem not_drainDue_settleSlot (s : State) (k : SlotId) : ¬DrainDue (s.settleSlot k) k := by
  intro h
  obtain ⟨t, r, ht, hd⟩ := h.of_settleSlot
  rcases hd with ⟨id, c, hp, hc, hn⟩ | ⟨n, w, hp, hw, h0⟩
  · have ended := closedAs_not_draining s k t r id c
    rw [State.settleSlot, State.endCloseDrain_of_due ht hp hc hn, State.endDeleteDrain_of_not_draining ended] at h
    exact not_drainDue_of_not_draining ended h
  · rw [State.settleSlot, State.endCloseDrain_of_delete ht hp, State.endDeleteDrain_of_due ht hp hw h0] at h
    exact not_drainDue_of_not_draining (deletedAs_not_draining s k t r n w) h

/-- After the settling of all slots no drain is due (R9, R133). -/
theorem not_drainDue_settleDrains (s : State) (k : SlotId) : ¬DrainDue s.settleDrains k := by
  rw [State.settleDrains_eq]
  have all : ∀ (l : List SlotId) (s : State), k ∈ l → ¬DrainDue (l.foldl State.settleSlot s) k := by
    intro l
    induction l with
    | nil => exact fun s hk => absurd hk List.not_mem_nil
    | cons j rest ih =>
      intro s hk h
      by_cases hkr : k ∈ rest
      · exact ih _ hkr h
      · obtain rfl := (List.mem_cons.mp hk).resolve_right hkr
        exact not_drainDue_settleSlot s k (DrainDue.of_foldl_settleSlot rest h)
  exact all _ s (List.mem_finRange k)

theorem State.settleSlot_of_not_draining {s : State} {k : SlotId} (h : ∀ u ∈ s.slots[k], u.draining = false) :
    s.settleSlot k = s := by
  rw [State.settleSlot, State.endCloseDrain_of_not_draining h, State.endDeleteDrain_of_not_draining h]

theorem State.foldl_settleSlot_of_not_draining {s : State} {l : List SlotId}
    (h : ∀ i ∈ l, ∀ u ∈ s.slots[i], u.draining = false) : l.foldl State.settleSlot s = s := by
  induction l with
  | nil => rfl
  | cons i rest ih =>
    rw [List.foldl_cons, State.settleSlot_of_not_draining (h i List.mem_cons_self)]
    exact ih fun j hj => h j (List.mem_cons_of_mem _ hj)

theorem State.settleSlot_slots_other (s : State) {j i : SlotId} (h : i ≠ j) :
    (s.settleSlot j).slots[i] = s.slots[i] := by
  have other : ∀ x : Option Task, (s.slots.set j x)[i] = s.slots[i] := fun x => by rw [get_set, if_neg (Ne.symm h)]
  have closed : (s.endCloseDrain j).slots[i] = s.slots[i] := by
    rcases s.endCloseDrain_cases j with e | ⟨t, r, id, c, -, -, -, -, e⟩ <;> rw [e]
    exact other _
  unfold State.settleSlot
  rcases (s.endCloseDrain j).endDeleteDrain_cases j with e | ⟨t, r, n, w, -, -, -, -, e⟩ <;> rw [e]
  · exact closed
  · rw [get_set, if_neg (Ne.symm h)]
    exact closed

/-- Where only one slot may hold a drain, the settling is that slot's. -/
theorem State.settleDrains_of_one {s : State} {j : SlotId}
    (h : ∀ i : SlotId, i ≠ j → ∀ u ∈ s.slots[i], u.draining = false) : s.settleDrains = s.settleSlot j := by
  obtain ⟨before, after, hl⟩ := List.append_of_mem (List.mem_finRange j)
  have nodup := List.nodup_finRange 8
  rw [hl, List.nodup_append, List.nodup_cons] at nodup
  obtain ⟨-, ⟨hafter, -⟩, hbefore⟩ := nodup
  rw [State.settleDrains_eq, hl, List.foldl_append, List.foldl_cons,
    State.foldl_settleSlot_of_not_draining fun i hi => h i fun e => hbefore i hi j List.mem_cons_self e]
  refine State.foldl_settleSlot_of_not_draining fun i hi => ?_
  have hij : i ≠ j := fun e => hafter (e ▸ hi)
  rw [s.settleSlot_slots_other hij]
  exact h i hij

theorem State.settleSlot_of_close_due {s : State} {j : SlotId} {u : Task} {r : Block64} {id : StationId} {c : Station}
    (hu : s.slots[j] = some u) (hp : u.phase = .drainWait r (.close id [])) (hc : s.stations[id] = .closing c)
    (hn : c.noticeInFlight = false) : s.settleSlot j = closedAs s j u r id c := by
  rw [State.settleSlot, State.endCloseDrain_of_due hu hp hc hn,
    State.endDeleteDrain_of_not_draining (closedAs_not_draining _ _ _ _ _ _)]

theorem State.settleSlot_of_close_waiting {s : State} {j : SlotId} {u : Task} {r : Block64} {id : StationId}
    {c : Station} {recorded : List SlotId} (hu : s.slots[j] = some u) (hp : u.phase = .drainWait r (.close id recorded))
    (hc : s.stations[id] = .closing c) (hw : recorded ≠ [] ∨ c.noticeInFlight = true) : s.settleSlot j = s := by
  rw [State.settleSlot, State.endCloseDrain_of_waiting hu hp hc hw, State.endDeleteDrain_of_close hu hp]

theorem State.settleSlot_of_delete_due {s : State} {j : SlotId} {u : Task} {r : Block64} {n : WorkRingId} {v : WorkRing}
    (hu : s.slots[j] = some u) (hp : u.phase = .drainWait r (.delete n)) (hv : s.workRings[n] = some v)
    (h0 : v.inFlight = 0) : s.settleSlot j = deletedAs s j u r n v := by
  rw [State.settleSlot, State.endCloseDrain_of_delete hu hp, State.endDeleteDrain_of_due hu hp hv h0]

theorem State.settleSlot_of_delete_waiting {s : State} {j : SlotId} {u : Task} {r : Block64} {n : WorkRingId}
    {v : WorkRing} (hu : s.slots[j] = some u) (hp : u.phase = .drainWait r (.delete n)) (hv : s.workRings[n] = some v)
    (h0 : v.inFlight ≠ 0) : s.settleSlot j = s := by
  rw [State.settleSlot, State.endCloseDrain_of_delete hu hp, State.endDeleteDrain_of_waiting hu hp hv h0]

end Sys2Proof.Machine
end

section
/-! The end of a result write beside a task in DRAIN_WAIT (R9, R22, R133, R138, R155). -/
namespace Sys2Proof.Machine

/-! ## The record that has been written -/

theorem resultIndex_kind {n : ResultRingId} {i : RingIndex} {x : Transfer} (h : x.resultIndex n = some i) :
    (∃ k, x.kind = .completion k n i) ∨ ∃ id, x.kind = .notice id n i := by
  unfold Transfer.resultIndex at h
  split at h
  · next k m j hk =>
    split at h
    · next hm => cases h; exact .inl ⟨k, hm ▸ hk⟩
    · cases h
  · next id m j hk =>
    split at h
    · next hm => cases h; exact .inr ⟨id, hm ▸ hk⟩
    · cases h
  · cases h

theorem resultIndex_congr {x y : Transfer} (h : y.kind = x.kind) (n : ResultRingId) :
    y.resultIndex n = x.resultIndex n := by
  unfold Transfer.resultIndex
  rw [h]

theorem resultIndex_of_oldestResult {s : State} {n : ResultRingId} {i : RingIndex} {e : Nat} {x : Transfer}
    (h : oldestResult s n i e = some x) : x.resultIndex n = some i ∧ x.epoch = e := by
  have := List.find?_some h
  simpa using this

/-- The oldest result write of a ring, index and epoch is the oldest transfer of its own kind and epoch. -/
theorem oldest_of_oldestResult {s : State} {n : ResultRingId} {i : RingIndex} {e : Nat} {x : Transfer}
    (h : oldestResult s n i e = some x) : oldest s x.kind e = some x := by
  obtain ⟨hx, he⟩ := resultIndex_of_oldestResult h
  obtain ⟨-, before, after, hl, hb⟩ := List.find?_eq_some_iff_append.mp h
  refine List.find?_eq_some_iff_append.mpr ⟨by simp [he], before, after, hl, fun y hy => ?_⟩
  have := hb y hy
  by_contra hk
  simp only [Bool.not_eq_true', Bool.not_eq_false, Bool.and_eq_true, beq_iff_eq] at hk
  obtain ⟨hkind, hepoch⟩ := hk
  simp [resultIndex_congr hkind, hx, hepoch] at this

/-- RESULT_WRITE_DONE of a write that can be carried ends that write, for the block that requested it. -/
theorem execResultWriteDone_cases {s : State} {n : ResultRingId} {i : RingIndex} {e : Nat} {x : Transfer}
    (h : oldestResult s n i e = some x) (hf : x.failing = false) :
    ∃ s', s.endDone x.kind e = some s' ∧
      ((∃ k, x.kind = .completion k n i ∧
          execResultWriteDone n i s e = .next ((s'.recordProduced n).freeSlot k).afterLastTask.settleDrains) ∨
        ∃ id, x.kind = .notice id n i ∧
          execResultWriteDone n i s e = .next ((s'.recordProduced n).noticeWritten id n).settleDrains) := by
  have ended := State.endDone_of_find (oldest_of_oldestResult h) hf
  have hr : s.resultInFlight n i e = some x := h
  refine ⟨_, ended, (resultIndex_kind (resultIndex_of_oldestResult h).1).imp ?_ ?_⟩
  · rintro ⟨k, hk⟩
    refine ⟨k, hk, ?_⟩
    unfold execResultWriteDone
    rw [hk] at ended
    simp only [hr, hk, ended]
  · rintro ⟨id, hk⟩
    refine ⟨id, hk, ?_⟩
    unfold execResultWriteDone
    rw [hk] at ended
    simp only [hr, hk, ended]

/-- The record is in host memory, produced and counted (R146, R157). -/
theorem recordProduced_of_endDone {s s' : State} {n : ResultRingId} {q : ResultRing} {i : RingIndex} {e : Nat}
    {x : Transfer} {data : List Byte} (h : oldestResult s n i e = some x) (hf : x.failing = false)
    (hd : x.payload = .write data) (hq : s.resultRings[n] = some q) (hs : s.endDone x.kind e = some s') :
    s'.recordProduced n = recordWritten s n q x data := by
  have hs' : s' = { s with
      transfers := without s x.kind e, hostMemory := Memory.writeBytes s.hostMemory x.address data } := by
    rw [State.endDone_of_find (oldest_of_oldestResult h) hf] at hs
    rw [← Option.some.inj hs, State.writeWhole, hd]
    rfl
  have hq' : s'.resultRings[n] = some q := by rw [hs']; exact hq
  rw [State.recordProduced_spec hq', hs', ← (resultIndex_of_oldestResult h).2]
  rfl

theorem execResultWriteDone_completion {s : State} {k : SlotId} {n : ResultRingId} {q : ResultRing} {i : RingIndex}
    {e : Nat} {x : Transfer} {data : List Byte} (h : oldestResult s n i e = some x) (hk : x.kind = .completion k n i)
    (hf : x.failing = false) (hd : x.payload = .write data) (hq : s.resultRings[n] = some q) :
    execResultWriteDone n i s e =
      .next ((recordWritten s n q x data).freeSlot k).afterLastTask.settleDrains := by
  obtain ⟨s', hs, ⟨j, hj, he⟩ | ⟨id, hj, -⟩⟩ := execResultWriteDone_cases h hf
  · rw [hk] at hj
    cases hj
    rw [he, recordProduced_of_endDone h hf hd hq hs]
  · rw [hk] at hj
    cases hj

theorem execResultWriteDone_notice {s : State} {id : StationId} {n : ResultRingId} {q : ResultRing} {i : RingIndex}
    {e : Nat} {x : Transfer} {data : List Byte} (h : oldestResult s n i e = some x) (hk : x.kind = .notice id n i)
    (hf : x.failing = false) (hd : x.payload = .write data) (hq : s.resultRings[n] = some q) :
    execResultWriteDone n i s e = .next ((recordWritten s n q x data).noticeWritten id n).settleDrains := by
  obtain ⟨s', hs, ⟨j, hj, -⟩ | ⟨m, hj, he⟩⟩ := execResultWriteDone_cases h hf
  · rw [hk] at hj
    cases hj
  · rw [hk] at hj
    cases hj
    rw [he, recordProduced_of_endDone h hf hd hq hs]

/-- Every result write's end settles the drains. -/
theorem not_drainDue_resultWriteDone {s t : State} {n : ResultRingId} {i : RingIndex} {e : Nat} {x : Transfer}
    (h : oldestResult s n i e = some x) (hf : x.failing = false) (ht : execResultWriteDone n i s e = .next t)
    (k : SlotId) : ¬DrainDue t k := by
  obtain ⟨s', -, ⟨j, -, he⟩ | ⟨id, -, he⟩⟩ := execResultWriteDone_cases h hf
  · rw [← Host.Outcome.next.inj (he.symm.trans ht)]
    exact not_drainDue_settleDrains _ k
  · rw [← Host.Outcome.next.inj (he.symm.trans ht)]
    exact not_drainDue_settleDrains _ k

/-! ## The slot that becomes FREE beside one drain -/

theorem Task.forgetSlot_close {u : Task} {r : Block64} {id : StationId} {recorded : List SlotId} (k : SlotId)
    (h : u.phase = .drainWait r (.close id recorded)) :
    u.forgetSlot k = { u with phase := .drainWait r (.close id (recorded.filter fun i => i != k)) } := by
  unfold Task.forgetSlot
  rw [h]

theorem Task.forgetSlot_delete {u : Task} {r : Block64} {n : WorkRingId} (k : SlotId)
    (h : u.phase = .drainWait r (.delete n)) : u.forgetSlot k = u := by
  unfold Task.forgetSlot
  rw [h]

/-- The slot leaves the table, its ring's count falls, and the one drain loses it (R9, R131, R132). -/
theorem State.freeSlot_beside {s : State} {k j : SlotId} {t u : Task} {w : WorkRing} (ht : s.slots[k] = some t)
    (hw : s.workRings[t.ring] = some w) (hjk : j ≠ k) (hu : s.slots[j] = some u)
    (h : ∀ i : SlotId, i ≠ j → ∀ v ∈ s.slots[i], v.draining = false) :
    s.freeSlot k = { s with
      slots := (s.slots.set k none).set j (some (u.forgetSlot k))
      workRings := s.workRings.set t.ring (some { w with inFlight := w.inFlight - 1 }) } := by
  have e : mapBank (Option.map (Task.forgetSlot k)) (s.slots.set k none) =
      (s.slots.set k none).set j (some (u.forgetSlot k)) := by
    refine bank_ext fun i => ?_
    rw [get_mapBank, get_set, get_set, get_set]
    by_cases hik : k = i
    · rw [if_pos hik, if_neg (fun hji : j = i => hjk (hji.trans hik.symm)), Option.map_none]
    · rw [if_neg hik]
      by_cases hij : j = i
      · subst hij
        rw [if_pos rfl, hu, Option.map_some]
      · rw [if_neg hij]
        cases hv : s.slots[i] with
        | none => rfl
        | some v => rw [Option.map_some, Task.forgetSlot_of_not_draining k (h i (Ne.symm hij) v hv)]
  unfold State.freeSlot
  simp only [ht, e, hw]
  rfl

theorem State.setSlot_held (s : State) (j : SlotId) (x : Option Task) : (s.setSlot j x).slots[j] = x := by
  rw [State.setSlot_slots, get_set, if_pos rfl]

theorem State.afterLastTask_of_held {s : State} {j : SlotId} {u : Task} (hu : s.slots[j] = some u) :
    s.afterLastTask = s := by
  have : s.tableEmpty = false := by
    rw [Bool.eq_false_iff, ne_eq, State.tableEmpty_iff]
    exact fun h => by rw [h j] at hu; cases hu
  rw [State.afterLastTask, this]
  rfl

theorem recordWritten_slots (s : State) (n : ResultRingId) (q : ResultRing) (x : Transfer) (data : List Byte) :
    (recordWritten s n q x data).slots = s.slots := rfl

/-- A completion's write has ended beside the task in slot j: its slot is FREE and its ring's count has fallen. -/
def completionWritten (s : State) (k : SlotId) (t : Task) (w : WorkRing) (n : ResultRingId) (q : ResultRing)
    (x : Transfer) (data : List Byte) : State :=
  { recordWritten s n q x data with
    slots := s.slots.set k none
    workRings := s.workRings.set t.ring (some { w with inFlight := w.inFlight - 1 }) }

/-- Beside the one task in DRAIN_WAIT, a completion's write frees its slot, takes it out of the drain set, and settles
that drain. -/
theorem execResultWriteDone_beside {s : State} {k j : SlotId} {t u : Task} {n : ResultRingId} {i : RingIndex}
    {q : ResultRing} {w : WorkRing} {x : Transfer} {e : Nat} {data : List Byte} (ht : s.slots[k] = some t)
    (hw : s.workRings[t.ring] = some w) (hq : s.resultRings[n] = some q) (hx : oldestResult s n i e = some x)
    (hk : x.kind = .completion k n i) (hd : x.payload = .write data) (hf : x.failing = false) (hjk : j ≠ k)
    (hu : s.slots[j] = some u) (h : ∀ i : SlotId, i ≠ j → ∀ v ∈ s.slots[i], v.draining = false) :
    execResultWriteDone n i s e =
      .next (((completionWritten s k t w n q x data).setSlot j (some (u.forgetSlot k))).settleSlot j) := by
  have freed : (recordWritten s n q x data).freeSlot k =
      (completionWritten s k t w n q x data).setSlot j (some (u.forgetSlot k)) :=
    State.freeSlot_beside (s := recordWritten s n q x data) ht hw hjk hu h
  rw [execResultWriteDone_completion hx hk hf hd hq, freed, State.afterLastTask_of_held (State.setSlot_held _ j _)]
  refine congrArg _ (State.settleDrains_of_one fun m hm v hv => ?_)
  rw [State.setSlot_slots, completionWritten, get_set, if_neg (Ne.symm hm), get_set] at hv
  split at hv
  · cases hv
  · exact h m hm v hv

/-- Closing reports nothing that the drain set of its task holds. -/
theorem closedAs_setSlot (s : State) (j : SlotId) (u : Task) (p : Phase) (r : Block64) (id : StationId) (c : Station) :
    closedAs (s.setSlot j (some { u with phase := p })) j { u with phase := p } r id c = closedAs s j u r id c := by
  unfold closedAs
  simp only [State.setSlot_slots, Vector.set_set]
  rfl

theorem State.setSlot_self {s : State} {j : SlotId} {x : Option Task} (h : s.slots[j] = x) : s.setSlot j x = s := by
  subst h
  unfold State.setSlot
  rw [set_get_self]

/-- A close whose drain set has lost a slot ends with an empty one and no NOTICE write in flight, and else waits. -/
theorem State.settleSlot_forgetSlot_close {s : State} {j : SlotId} {u : Task} {r : Block64} {id : StationId}
    {c : Station} {recorded : List SlotId} (k : SlotId) (hp : u.phase = .drainWait r (.close id recorded))
    (hc : s.stations[id] = .closing c) :
    (recorded.filter (fun i => i != k) = [] → c.noticeInFlight = false →
      (s.setSlot j (some (u.forgetSlot k))).settleSlot j = closedAs s j u r id c) ∧
    (recorded.filter (fun i => i != k) ≠ [] ∨ c.noticeInFlight = true →
      (s.setSlot j (some (u.forgetSlot k))).settleSlot j =
        s.setSlot j (some { u with phase := .drainWait r (.close id (recorded.filter fun i => i != k)) })) := by
  rw [Task.forgetSlot_close k hp]
  refine ⟨fun h0 hn => ?_, fun hw => State.settleSlot_of_close_waiting (s.setSlot_held j _) rfl hc hw⟩
  rw [h0, State.settleSlot_of_close_due (s.setSlot_held j _) rfl hc hn]
  exact closedAs_setSlot s j u _ r id c

/-- A deletion's task loses no slot: it ends with nothing of its ring in flight, and else waits. -/
theorem State.settleSlot_forgetSlot_delete {s : State} {j : SlotId} {u : Task} {r : Block64} {n : WorkRingId}
    {v : WorkRing} (k : SlotId) (hu : s.slots[j] = some u) (hp : u.phase = .drainWait r (.delete n))
    (hv : s.workRings[n] = some v) :
    (v.inFlight = 0 → (s.setSlot j (some (u.forgetSlot k))).settleSlot j = deletedAs s j u r n v) ∧
    (v.inFlight ≠ 0 → (s.setSlot j (some (u.forgetSlot k))).settleSlot j = s) := by
  rw [Task.forgetSlot_delete k hp, State.setSlot_self hu]
  exact ⟨State.settleSlot_of_delete_due hu hp hv, State.settleSlot_of_delete_waiting hu hp hv⟩

/-! ## The end of a NOTICE's write beside one drain -/

theorem State.noticePending_iff (s : State) (id : StationId) :
    s.noticePending id = true ↔ ∃ y ∈ s.transfers, ∃ n i, y.kind = .notice id n i := by
  rw [State.noticePending, List.any_eq_true]
  refine exists_congr fun y => and_congr_right fun _ => ?_
  cases hk : y.kind with
  | notice j n i => simp
  | _ => simp

/-- The mark of a station after a NOTICE's write: another of its notices is in flight. -/
theorem recordWritten_noticePending {s : State} {n : ResultRingId} {q : ResultRing} {x : Transfer} {data : List Byte}
    (id : StationId) :
    (recordWritten s n q x data).noticePending id = true ↔
      ∃ y ∈ without s x.kind x.epoch, ∃ m i, y.kind = .notice id m i := by
  rw [State.noticePending_iff]
  constructor
  · rintro ⟨y, hy, m, i, hk⟩
    rcases List.mem_append.mp hy with hy | hy
    · exact ⟨y, hy, m, i, hk⟩
    · rw [List.mem_singleton.mp hy] at hk
      cases hk
  · rintro ⟨y, hy, m, i, hk⟩
    exact ⟨y, List.mem_append_left _ hy, m, i, hk⟩

/-- With a task in the table, a NOTICE's write only renews the station's mark. -/
theorem State.noticeWritten_of_held {s : State} {j : SlotId} {u : Task} (hu : s.slots[j] = some u) (id : StationId)
    (n : ResultRingId) :
    s.noticeWritten id n =
      s.setStation id ((s.stations[id]).update fun c => { c with noticeInFlight := s.noticePending id }) := by
  unfold State.noticeWritten
  rw [if_neg]
  intro h
  have := (State.tableEmpty_iff _).mp h j
  rw [State.setStation_slots, hu] at this
  cases this

theorem execResultWriteDone_notice_beside {s : State} {j : SlotId} {u : Task} {id : StationId} {n : ResultRingId}
    {i : RingIndex} {q : ResultRing} {x : Transfer} {e : Nat} {data : List Byte} (hq : s.resultRings[n] = some q)
    (hx : oldestResult s n i e = some x) (hk : x.kind = .notice id n i) (hd : x.payload = .write data)
    (hf : x.failing = false) (hu : s.slots[j] = some u)
    (h : ∀ i : SlotId, i ≠ j → ∀ v ∈ s.slots[i], v.draining = false) :
    execResultWriteDone n i s e = .next (State.settleSlot { recordWritten s n q x data with
      stations := s.stations.set id ((s.stations[id]).update fun c =>
        { c with noticeInFlight := (recordWritten s n q x data).noticePending id }) } j) := by
  rw [execResultWriteDone_notice hx hk hf hd hq,
    State.noticeWritten_of_held (s := recordWritten s n q x data) (j := j) hu]
  exact congrArg _ (State.settleDrains_of_one h)

/-- Settles O25: the settling leaves no drain due, and beside one task in DRAIN_WAIT it is the settling of that slot. -/
theorem noDueDrainIsLeft : Obligations.NoDueDrainIsLeft := by
  unfold Obligations.NoDueDrainIsLeft
  refine ⟨fun s t n i x e hx hf ht k => not_drainDue_resultWriteDone hx hf ht k, ?_, ?_⟩
  · intro s k j t u n i q w x e data r ht hw hq hx hk hd hf hjk hu h written
    have ends := execResultWriteDone_beside ht hw hq hx hk hd hf hjk hu h
    have kept : written.slots[j] = some u := by
      show (s.slots.set k none)[j] = some u
      rw [get_set, if_neg (Ne.symm hjk), hu]
    refine ⟨fun id c recorded hp hc => ?_, fun m v hp hv => ?_⟩
    · obtain ⟨due, waits⟩ := State.settleSlot_forgetSlot_close (s := written) (j := j) k hp hc
      exact ⟨fun h0 hn => ends.trans (congrArg _ (due h0 hn)), fun hwait => ends.trans (congrArg _ (waits hwait))⟩
    · obtain ⟨due, waits⟩ := State.settleSlot_forgetSlot_delete (s := written) k kept hp hv
      exact ⟨fun h0 => ends.trans (congrArg _ (due h0)), fun h0 => ends.trans (congrArg _ (waits h0))⟩
  · intro s j u id c n i q x e data r hc hq hx hk hd hf hu h
    have ends := execResultWriteDone_notice_beside hq hx hk hd hf hu h
    refine ⟨(recordWritten s n q x data).noticePending id, ?_, ?_⟩
    · rw [recordWritten_noticePending, (resultIndex_of_oldestResult hx).2]
    · intro written
      refine ⟨fun m d recorded hp hm => ⟨fun h0 hn => ?_, fun hw => ?_⟩, fun m v hp hv => ⟨fun h0 => ?_, fun h0 => ?_⟩⟩
      · subst h0
        exact ends.trans (congrArg _ (State.settleSlot_of_close_due hu hp hm hn))
      · exact ends.trans (congrArg _ (State.settleSlot_of_close_waiting hu hp hm hw))
      · exact ends.trans (congrArg _ (State.settleSlot_of_delete_due hu hp hv h0))
      · exact ends.trans (congrArg _ (State.settleSlot_of_delete_waiting hu hp hv h0))

end Sys2Proof.Machine
end

section
/-! The home-ring commands: the checks in their order (R3), and FREEZE, THAW, RESEEK, SET_ACTUATORS and ACK_NOTICE
(R15 to R19). -/
namespace Sys2Proof.Machine

/-! ## Ids and fields of records -/

theorem idOf_val {n : Nat} (id : Fin n) : idOf n id.val = some id := by
  unfold idOf
  rw [dif_pos id.isLt]

theorem idOf_of_le {n x : Nat} (h : n ≤ x) : idOf n x = none := by
  unfold idOf
  rw [dif_neg (Nat.not_lt.mpr h)]

theorem actuatorsAccepted_iff (r : Block64) : actuatorsAccepted r = true ↔ ActuatorsInRange r := by
  simp only [actuatorsAccepted, ActuatorsInRange, Bool.and_eq_true, decide_eq_true_eq, and_assoc]

theorem gridAccepted_iff (r : Block64) :
    gridAccepted r = true ↔ (1 ≤ recordByte9 r ∧ recordByte9 r ≤ 8) ∧ (1 ≤ recordByteA r ∧ recordByteA r ≤ 8) ∧
      (recordSynth r = false → (recordAddress r).toNat % 4 = 0) := by
  cases hs : recordSynth r <;>
    simp only [gridAccepted, hs, Bool.and_eq_true, decide_eq_true_eq, Bool.false_or, Bool.true_or, beq_iff_eq,
      and_assoc, forall_const, Bool.true_eq_false, false_implies, and_true]

theorem measureAccepted_iff (r : Block64) : measureAccepted r = true ↔ MeasureInRange r := by
  rw [measureAccepted, Bool.and_eq_true, gridAccepted_iff]
  cases hs : recordSynth r <;>
    simp only [MeasureInRange, hs, Bool.not_false, Bool.not_true, Bool.true_or, Bool.false_or, Bool.and_eq_true,
      decide_eq_true_eq, and_assoc, forall_const, Bool.true_eq_false, Bool.false_eq_true, false_implies, and_true,
      true_and]

/-! ## The check of a home-ring command (R3) -/

section homeCheck
variable {s : State} {t : Task} {r : Block64} {fields : Bool} {id : StationId} {c : Station}

theorem State.homeCheck_control (h : t.ring = 0) : s.homeCheck t r fields = .error .wrongRing := if_pos h

theorem State.homeCheck_badField (h : t.ring ≠ 0) (hf : 32 ≤ recordByte8 r ∨ fields = false) :
    s.homeCheck t r fields = .error .badField := by
  unfold State.homeCheck
  rw [if_neg h]
  split
  · rfl
  · next id hid =>
    have : fields = false := hf.resolve_left fun h32 => by rw [idOf_of_le h32] at hid; cases hid
    rw [this]
    rfl

theorem State.homeCheck_free (h : t.ring ≠ 0) (hid : recordByte8 r = id.val) (hf : fields = true)
    (hc : s.stations[id] = .free) : s.homeCheck t r fields = .error .noStation := by
  unfold State.homeCheck
  simp only [if_neg h, hid, idOf_val, hf, hc]
  rfl

theorem State.homeCheck_otherRing (h : t.ring ≠ 0) (hid : recordByte8 r = id.val) (hf : fields = true)
    (hc : (s.stations[id]).station = some c) (hr : c.homeRing ≠ t.ring) :
    s.homeCheck t r fields = .error .wrongRing := by
  unfold State.homeCheck
  simp only [if_neg h, hid, idOf_val, hf]
  cases hx : s.stations[id] with
  | free => rw [hx] at hc; cases hc
  | opened d => rw [hx] at hc; cases hc; exact if_pos hr
  | closing d => rw [hx] at hc; cases hc; exact if_pos hr

theorem State.homeCheck_closing (h : t.ring ≠ 0) (hid : recordByte8 r = id.val) (hf : fields = true)
    (hc : (s.stations[id]).station = some c) (hr : c.homeRing = t.ring) (hx : (s.stations[id]).state = .closing) :
    s.homeCheck t r fields = .error .stationClosing := by
  unfold State.homeCheck
  simp only [if_neg h, hid, idOf_val, hf]
  cases hx' : s.stations[id] with
  | free => rw [hx'] at hc; cases hc
  | opened d => rw [hx'] at hx; cases hx
  | closing d => rw [hx'] at hc; cases hc; exact if_neg (not_not.mpr hr)

theorem State.homeCheck_of_obeys (h : Obeys s t r id c) (hf : fields = true) :
    s.homeCheck t r fields = .ok (id, c) := by
  unfold State.homeCheck
  simp only [if_neg h.fromStationRing, h.named, idOf_val, hf, h.opened, h.home, Bool.not_true, Bool.false_eq_true,
    if_false, ne_eq, not_true_eq_false]

end homeCheck

/-! ## What a failing and a passing command does -/

/-- A home-ring command tests its own fields and answers the first check that fails. -/
theorem homeCommand_fails {i : Instr} {s : State} {k : SlotId} {kind : Nat} {t : Task} {r : Block64}
    (hi : homeKindOf i = some (k, kind)) (hr : Runs s k t r kind) :
    ∃ fields : Bool, (fields = true ↔ FieldsInRange kind r) ∧ ∀ status, s.homeCheck t r fields = .error status →
      exec i s = .next { s with slots := s.slots.set k (some (answered t r status failedHomeBody)) } := by
  have plain : ∀ (kind : Nat) (fields : Block64 → Bool) (act : Block64 → Station → Station) (status : Status),
      Runs s k t r kind → s.homeCheck t r (fields r) = .error status →
      s.homeCommand k kind fields act =
        { s with slots := s.slots.set k (some (answered t r status failedHomeBody)) } := by
    intro kind fields act status hr hs
    rw [State.homeCommand, State.executing_of_runs hr, hs]
    rfl
  cases i with
  | measure j =>
    cases hi
    refine ⟨measureAccepted r, by simp [FieldsInRange, measureAccepted_iff], fun status hs => ?_⟩
    show execMeasure k s = _
    rw [execMeasure, State.executing_of_runs (kind := Kind.measure) hr, hs]
    rfl
  | freeze j => cases hi; exact ⟨true, by simp [FieldsInRange], fun status hs => congrArg _ (plain _ _ _ status hr hs)⟩
  | thaw j => cases hi; exact ⟨true, by simp [FieldsInRange], fun status hs => congrArg _ (plain _ _ _ status hr hs)⟩
  | reseek j => cases hi; exact ⟨true, by simp [FieldsInRange], fun status hs => congrArg _ (plain _ _ _ status hr hs)⟩
  | setActuators j =>
    cases hi
    exact ⟨actuatorsAccepted r, by simp [FieldsInRange, actuatorsAccepted_iff],
      fun status hs => congrArg _ (plain _ _ _ status hr hs)⟩
  | ackNotice j =>
    cases hi
    exact ⟨true, by simp [FieldsInRange], fun status hs => congrArg _ (plain _ _ _ status hr hs)⟩
  | _ => cases hi

/-- A home-ring command other than MEASURE whose record a station obeys changes that station and answers OK. -/
theorem State.homeCommand_of_obeys {s : State} {k : SlotId} {kind : Nat} {t : Task} {r : Block64} {id : StationId}
    {c : Station} (hr : Runs s k t r kind) (ho : Obeys s t r id c) {fields : Block64 → Bool} (hf : fields r = true)
    (act : Block64 → Station → Station) :
    s.homeCommand k kind fields act = { s with
      stations := s.stations.set id (.opened (act r c))
      slots := s.slots.set k (some (answered t r .ok (reportBody (act r c).loop (act r c).newest))) } := by
  rw [State.homeCommand, State.executing_of_runs hr, State.homeCheck_of_obeys ho hf]
  rfl

/-- Settles O36: each command answers the first error of the one check of R3, with its own test of fields. -/
theorem homeCommandChecks : Obligations.HomeCommandChecks := by
  unfold Obligations.HomeCommandChecks
  intro s i k kind t r hi hr fails
  obtain ⟨fields, hfields, answers⟩ := homeCommand_fails hi hr
  refine ⟨fun h0 => answers _ (State.homeCheck_control h0), fun h hbad => answers _ (State.homeCheck_badField h ?_), ?_⟩
  · exact hbad.imp_right fun hn => by rwa [← hfields, Bool.not_eq_true] at hn
  · intro id h hid hin
    have hf := hfields.mpr hin
    exact ⟨fun hc => answers _ (State.homeCheck_free h hid hf hc), fun c hc =>
      ⟨fun hh => answers _ (State.homeCheck_otherRing h hid hf hc hh),
        fun hh hx => answers _ (State.homeCheck_closing h hid hf hc hh hx)⟩⟩

/-- Settles O37: what a home-ring command does to the station that obeys it. -/
theorem freezeReseekAckNotice : Obligations.FreezeReseekAckNotice := by
  unfold Obligations.FreezeReseekAckNotice
  exact ⟨fun s k t r id c hr ho => congrArg _ (State.homeCommand_of_obeys hr ho rfl _),
    fun s k t r id c ho => ⟨fun hr => congrArg _ (State.homeCommand_of_obeys hr ho rfl _),
      fun hr => congrArg _ (State.homeCommand_of_obeys hr ho rfl _)⟩⟩

/-! ## THAW and SET_ACTUATORS -/

theorem Station.thaw_frozen {c : Station} (h : c.loop = .frozen) :
    c.thaw = { c with loop := .seeking, pendingSet := joined c 0x002#9 } := by
  unfold Station.thaw
  rw [if_pos h]
  rfl

theorem Station.thaw_other {c : Station} (h : c.loop ≠ .frozen) : c.thaw = c := if_neg h

/-- Settles O38: THAW's two cases by the loop state. -/
theorem thaw : Obligations.Thaw := by
  unfold Obligations.Thaw
  intro s k t r id c hr ho
  have thaws := State.homeCommand_of_obeys hr ho (fields := fun _ => true) rfl fun _ c => c.thaw
  refine ⟨fun h => ?_, fun h => ?_⟩
  · rw [Station.thaw_frozen h] at thaws
    exact congrArg _ thaws
  · rw [Station.thaw_other h, ← ho.opened, set_get_self] at thaws
    exact congrArg _ thaws

/-- Entering SEEKING raises SEEK, unless the station is in it. -/
theorem enter_seeking (c : Station) :
    enter .seeking c =
      { c with loop := .seeking, pendingSet := if c.loop = .seeking then c.pendingSet else joined c 0x002#9 } := by
  by_cases h : c.loop = .seeking
  · rw [enter, if_pos h.symm, if_pos h, ← h]
  · rw [enter, if_neg (Ne.symm h), if_neg h]
    rfl

theorem Station.setActuators_eq (f : Frame) (i g l : Nat) (c : Station) :
    c.setActuators f i g l = { c with
      older := [], newest := entryOf c.frameLines (some f) (treat c.profile c.frameLines i g l)
      loop := if c.loop = .frozen then .frozen else .seeking
      pendingSet := if c.loop = .frozen ∨ c.loop = .seeking then c.pendingSet else joined c 0x002#9 } := by
  unfold Station.setActuators
  by_cases h : c.loop = .frozen
  · simp only [h, if_true, true_or]
  · simp only [h, if_false, false_or, enter_seeking]
    rfl

/-- Settles O39: SET_ACTUATORS' change of the station that obeys it. -/
theorem setActuators : Obligations.SetActuators := by
  unfold Obligations.SetActuators
  intro s k t r id c hr ho hin
  have acts := State.homeCommand_of_obeys hr ho ((actuatorsAccepted_iff r).mpr hin) fun r c =>
    c.setActuators (recordFrame r) (recordI r) (recordG r) (recordL r)
  rw [Station.setActuators_eq] at acts
  exact congrArg _ acts

end Sys2Proof.Machine
end

section
/-! The ends of a grid read and of a snapshot write (R14, R27, R28, R179, R180). -/
namespace Sys2Proof.Machine

/-! ## A transfer's end by its payload -/

section ends
variable {s : State} {kind : TransferKind} {e : Nat} {x : Transfer}

theorem State.endDone_read (h : oldest s kind e = some x) (hf : x.failing = false) (hp : ∃ n, x.payload = .read n) :
    s.endDone kind e = some { s with transfers := without s kind e } := by
  obtain ⟨n, hp⟩ := hp
  rw [State.endDone_of_find h hf, State.writeWhole, hp]
  rfl

theorem State.endFailed_read (h : oldest s kind e = some x) (hp : ∃ n, x.payload = .read n) :
    s.endFailed kind e = some { s with transfers := without s kind e } := by
  obtain ⟨n, hp⟩ := hp
  rw [State.endFailed_of_find h, State.writePart, hp]
  rfl

theorem State.endDone_write {data : List Byte} (h : oldest s kind e = some x) (hf : x.failing = false)
    (hp : x.payload = .write data) :
    s.endDone kind e = some { s with
      transfers := without s kind e, hostMemory := Memory.writeBytes s.hostMemory x.address data } := by
  rw [State.endDone_of_find h hf, State.writeWhole, hp]
  rfl

/-- A write that ended failed leaves host memory torn. -/
theorem State.endFailed_torn (h : oldest s kind e = some x) :
    ∃ m d, s.endFailed kind e = some { s with transfers := without s kind e, hostMemory := m, draws := d } ∧
      Torn [x] s.hostMemory m := by
  obtain ⟨y, hy, m, d, ht, torn⟩ := State.endFailed_eq_some (State.endFailed_of_find h)
  rw [h] at hy
  cases hy
  exact ⟨m, d, (State.endFailed_of_find h).trans (congrArg some ht), torn⟩

end ends

/-! ## The cells of a grid's bytes (R23, R27) -/

/-- Four bytes in front are one cell in front. -/
theorem cellsOf_eq_cons {data : List Byte} (h : 4 ≤ data.length) :
    cellsOf data = cellOf (leNat (data.take 4)) :: cellsOf (data.drop 4) := by
  match data, h with
  | _ :: _ :: _ :: _ :: _, _ => rfl

theorem cellsOf_length {data : List Byte} {n : Nat} (h : data.length = 4 * n) : (cellsOf data).length = n := by
  induction n generalizing data with
  | zero =>
    rw [List.length_eq_zero_iff.mp h]
    rfl
  | succ n ih =>
    rw [cellsOf_eq_cons (by omega), List.length_cons, ih (by rw [List.length_drop]; omega)]

theorem cellsOf_getElem? {data : List Byte} {n i : Nat} (h : data.length = 4 * n) (hi : i < n) :
    (cellsOf data)[i]? = some (cellOf (leNat ((data.drop (4 * i)).take 4))) := by
  induction n generalizing data i with
  | zero => omega
  | succ n ih =>
    rw [cellsOf_eq_cons (by omega)]
    cases i with
    | zero => rfl
    | succ i =>
      rw [List.getElem?_cons_succ, ih (by rw [List.length_drop]; omega) (by omega), List.drop_drop,
        show 4 + 4 * i = 4 * (i + 1) by omega]

/-! ## The ends -/

section grid
variable {s : State} {k : SlotId} {t : Task} {r : Block64} {x : Transfer} {e : Nat}

theorem execGridReadDone_of {data : List Byte} (ht : s.slots[k] = some t) (hp : t.phase = .fetching r)
    (hx : oldest s (.gridRead k) e = some x) (hr : ∃ n, x.payload = .read n) (hf : x.failing = false)
    (hd : data.length = 4 * recordByte9 r * recordByteA r) :
    execGridReadDone k data s e = .next { s with
      slots := s.slots.set k (some { t with phase := .queued (some r), grid := .held (cellsOf data) })
      transfers := without s (.gridRead k) e } := by
  unfold execGridReadDone
  simp only [ht, hp, State.endDone_read hx hf hr, if_pos hd]
  rfl

theorem execGridReadFault_of (ht : s.slots[k] = some t) (hp : t.phase = .fetching r)
    (hx : oldest s (.gridRead k) e = some x) (hr : ∃ n, x.payload = .read n) :
    execGridReadFault k s e = .next { s with
      slots := s.slots.set k (some { t with phase := .queued (some r), grid := .failed })
      transfers := without s (.gridRead k) e } := by
  unfold execGridReadFault
  simp only [ht, hp, State.endFailed_read hx hr]
  rfl

end grid

section snapshot
variable {s : State} {k : SlotId} {t : Task} {record : Option Block64} {c : Completion} {image : Option (List Byte)}
  {x : Transfer} {e : Nat} {data : List Byte}

theorem execSnapshotWriteDone_of (hx : oldest s (.snapshot k) e = some x) (hf : x.failing = false)
    (hp : x.payload = .write data) :
    execSnapshotWriteDone k s e = .next { s with
      transfers := without s (.snapshot k) e, hostMemory := Memory.writeBytes s.hostMemory x.address data } := by
  unfold execSnapshotWriteDone
  rw [State.endDone_write hx hf hp]

theorem Task.bufferFault_writing (hp : t.phase = .writing record c image) :
    t.bufferFault = { t with phase := .writing record { c with status := .bufferFault } image } := by
  unfold Task.bufferFault
  rw [hp]

theorem execSnapshotWriteFault_of (ht : s.slots[k] = some t) (hp : t.phase = .writing record c image)
    (hx : oldest s (.snapshot k) e = some x) :
    ∃ m d, execSnapshotWriteFault k s e = .next { s with
        slots := s.slots.set k (some { t with phase := .writing record { c with status := .bufferFault } image })
        transfers := without s (.snapshot k) e
        hostMemory := m
        draws := d } ∧ Torn [x] s.hostMemory m := by
  obtain ⟨m, d, he, torn⟩ := State.endFailed_torn hx
  refine ⟨m, d, ?_, torn⟩
  unfold execSnapshotWriteFault
  simp only [he, ht, Option.map_some, Task.bufferFault_writing hp]
  rfl

end snapshot

/-- Settles O20: the end of a read changes nothing of host memory, and that of a write places or tears its bytes. -/
theorem gridAndSnapshotEnds : Obligations.GridAndSnapshotEnds := by
  unfold Obligations.GridAndSnapshotEnds
  refine ⟨fun s k t r x e ht hp hx hr => ⟨fun data hf hd => ?_, execGridReadFault_of ht hp hx hr⟩,
    fun s k t record c image x e data ht hp hx hw =>
      ⟨fun hf => execSnapshotWriteDone_of hx hf hw, execSnapshotWriteFault_of ht hp hx⟩⟩
  have hd' : data.length = 4 * (recordByte9 r * recordByteA r) := by rw [hd, Nat.mul_assoc]
  exact ⟨cellsOf data, execGridReadDone_of ht hp hx hr hf hd, cellsOf_length hd', fun i hi => cellsOf_getElem? hd' hi⟩

end Sys2Proof.Machine
end

section
/-! OPEN_STATION and CLOSE_STATION: their checks in order, the station that opens, and the close's drain set (R4 to
R10). -/
namespace Sys2Proof.Machine

/-! ## CLOSE_STATION -/

section close
variable {s : State} {k : SlotId} {t : Task} {r : Block64} {id : StationId}

theorem State.closeCheck_wrongRing (h : t.ring ≠ 0) : s.closeCheck t r = .error .wrongRing := if_pos h

theorem State.closeCheck_badField (h : t.ring = 0) (h32 : 32 ≤ recordByte8 r) :
    s.closeCheck t r = .error .badField := by
  unfold State.closeCheck
  simp only [h, idOf_of_le h32]
  rfl

theorem State.closeCheck_free (h : t.ring = 0) (hid : recordByte8 r = id.val) (hc : s.stations[id] = .free) :
    s.closeCheck t r = .error .noStation := by
  unfold State.closeCheck
  simp only [h, hid, idOf_val, hc]
  rfl

theorem State.closeCheck_closing {c : Station} (h : t.ring = 0) (hid : recordByte8 r = id.val)
    (hc : s.stations[id] = .closing c) : s.closeCheck t r = .error .stationClosing := by
  unfold State.closeCheck
  simp only [h, hid, idOf_val, hc]
  rfl

theorem State.closeCheck_ok {c : Station} (h : t.ring = 0) (hid : recordByte8 r = id.val)
    (hc : s.stations[id] = .opened c) : s.closeCheck t r = .ok (id, c) := by
  unfold State.closeCheck
  simp only [h, hid, idOf_val, hc]
  rfl

theorem execCloseStation_fails (hr : Runs s k t r 0x09) {status : Status} (h : s.closeCheck t r = .error status) :
    execCloseStation k s = .next { s with slots := s.slots.set k (some (answered t r status .blank)) } := by
  rw [execCloseStation, State.executing_of_runs (kind := Kind.closeStation) hr, h]
  rfl

theorem execCloseStation_passes (hr : Runs s k t r 0x09) {c : Station} (h : s.closeCheck t r = .ok (id, c)) :
    execCloseStation k s = .next (((s.setStation id (.closing c)).setSlot k
      (some { t with phase := .drainWait r (.close id (s.drainSet c.homeRing id)) })).endCloseDrain k) := by
  rw [execCloseStation, State.executing_of_runs (kind := Kind.closeStation) hr, h]

end close

/-- The slots of a close's drain set hold a record of the home ring that names the station, or one still being read. -/
theorem Task.drainsFor_iff (u : Task) (ring : WorkRingId) (id : StationId) :
    u.drainsFor ring id = true ↔ u.ring = ring ∧ (u.phase = .reading ∨ ∃ a, namesStation a id = true ∧
      (u.phase = .fetching a ∨ u.phase = .queued (some a) ∨ (∃ d, u.phase = .drainWait a d) ∨
        ∃ done image, u.phase = .writing (some a) done image)) := by
  rw [Task.drainsFor, Bool.and_eq_true, decide_eq_true_eq]
  refine and_congr_right fun _ => ?_
  cases hp : u.phase with
  | reading => simp
  | fetching a => simp
  | queued a => cases a <;> simp
  | drainWait a d => simp
  | writing a done image => cases a <;> simp

theorem State.mem_drainSet {s : State} {ring : WorkRingId} {id : StationId} {j : SlotId} :
    j ∈ s.drainSet ring id ↔ ∃ u, s.slots[j] = some u ∧ u.drainsFor ring id = true := by
  rw [State.drainSet, List.mem_filter, and_iff_right (List.mem_finRange j)]
  cases s.slots[j] with
  | none => simp
  | some u => simp

theorem State.drainSet_rising (s : State) (ring : WorkRingId) (id : StationId) :
    (s.drainSet ring id).Pairwise (· < ·) :=
  (List.pairwise_lt_finRange 8).filter _

/-- The end of a close takes its station from what it finds. -/
theorem closedAs_setStation (s : State) (k : SlotId) (t : Task) (r : Block64) (id : StationId) (x : Context)
    (c : Station) : closedAs (s.setStation id x) k t r id c = closedAs s k t r id c := by
  unfold closedAs
  simp only [State.setStation_stations, Vector.set_set]
  rfl

/-- Settles O34: the checks, then the drain set as the slots stand, and the close's end where nothing is awaited. -/
theorem closeStation : Obligations.CloseStation := by
  unfold Obligations.CloseStation
  intro s k t r hr fails
  have fail := fun status => execCloseStation_fails (status := status) hr
  refine ⟨fun h => fail _ (State.closeCheck_wrongRing h), fun h h32 => fail _ (State.closeCheck_badField h h32),
    fun id h hid => ⟨fun hc => fail _ (State.closeCheck_free h hid hc),
      fun c hc => fail _ (State.closeCheck_closing h hid hc), fun c hc => ?_⟩⟩
  have passes := execCloseStation_passes hr (State.closeCheck_ok h hid hc)
  have held := State.setSlot_held (s.setStation id (.closing c)) k
  have closing : (s.setStation id (.closing c)).stations[id] = .closing c := by
    rw [State.setStation_stations, get_set, if_pos rfl]
  refine ⟨s.drainSet c.homeRing id, s.drainSet_rising _ _, fun j => ?_, fun hw => ?_, fun h0 hn => ?_⟩
  · simp only [State.mem_drainSet, Task.drainsFor_iff]
  · exact passes.trans (congrArg _ (State.endCloseDrain_of_waiting (held _) rfl closing hw))
  · rw [h0] at passes
    refine passes.trans (congrArg _ ?_)
    exact (State.endCloseDrain_of_due (held _) rfl closing hn).trans
      ((closedAs_setSlot _ k t _ r id c).trans (closedAs_setStation s k t r id _ c))

/-! ## OPEN_STATION -/

/-- The fields of an OPEN_STATION record in range (R4). -/
abbrev OpenInRange (r : Block64) : Prop :=
  recordByte8 r < 32 ∧ (1 ≤ recordByte9 r ∧ recordByte9 r ≤ 7) ∧ recordByteA r < 4 ∧ 16 ≤ recordSize r ∧
    (1 ≤ recordDelay r ∧ recordDelay r ≤ 4) ∧ ActuatorsInRange r ∧ (recordByteB r < 8 ∨ recordByteB r = 0xFF)

theorem idOf_eq_some {n x : Nat} {i : Fin n} (h : idOf n x = some i) : x = i.val := by
  unfold idOf at h
  split at h
  · cases h; rfl
  · cases h

theorem openSetId_none : openSetId 0xFF = some none := rfl

theorem openSetId_val (i : SetId) : openSetId i.val = some (some i) := by
  unfold openSetId
  rw [if_neg (by omega), idOf_val]
  rfl

theorem openSetId_range {b : Nat} {set : Option SetId} (h : openSetId b = some set) : b < 8 ∨ b = 0xFF := by
  unfold openSetId at h
  split at h
  · next hb => exact .inr hb
  · obtain ⟨i, hi, -⟩ := Option.map_eq_some_iff.mp h
    exact .inl (idOf_eq_some hi ▸ i.isLt)

theorem openRequest_of {r : Block64} {id : StationId} {home : WorkRingId} {notice : ResultRingId} {set : Option SetId}
    (h8 : recordByte8 r = id.val) (h9 : recordByte9 r = home.val) (hA : recordByteA r = notice.val)
    (hB : openSetId (recordByteB r) = some set) (h : OpenInRange r) : openRequest r = some ⟨id, home, notice, set⟩ := by
  obtain ⟨-, ⟨h1, -⟩, -, hsize, ⟨hlow, hhigh⟩, hact, -⟩ := h
  have hhome : home ≠ 0 := by
    rintro rfl
    rw [h9] at h1
    exact absurd h1 (by decide)
  unfold openRequest
  simp only [h8, h9, hA, hB, idOf_val]
  exact if_pos ⟨hhome, hsize, hlow, hhigh, (actuatorsAccepted_iff r).mpr hact⟩

theorem openRequest_range {r : Block64} {q : OpenRequest} (h : openRequest r = some q) : OpenInRange r := by
  unfold openRequest at h
  split at h
  · next id home notice set h8 h9 hA hB =>
    split at h
    · next hc =>
      obtain ⟨hhome, hsize, hlow, hhigh, hact⟩ := hc
      have h1 : home.val ≠ 0 := fun e => hhome (Fin.ext e)
      rw [← idOf_eq_some h9] at h1
      refine ⟨idOf_eq_some h8 ▸ id.isLt, ⟨by omega, ?_⟩, idOf_eq_some hA ▸ notice.isLt, hsize, ⟨hlow, hhigh⟩,
        (actuatorsAccepted_iff r).mp hact, openSetId_range hB⟩
      rw [idOf_eq_some h9]
      omega
    · cases h
  · cases h

theorem State.ringActive_iff (s : State) (n : WorkRingId) :
    s.ringActive n = true ↔ ∃ w, s.workRings[n] = some w ∧ w.state = .active := by
  unfold State.ringActive
  cases s.workRings[n] with
  | none => simp
  | some w => simp

theorem openSetCheck_noSet {ring : WorkRingId} {x : StagingSet} (h : x.state ≠ .opened) :
    openSetCheck ring x = .error .noSet := by
  cases x with
  | free => rfl
  | opened owner items => exact absurd rfl h
  | armed owner items id frame => rfl

theorem openSetCheck_notOwner {ring : WorkRingId} {x : StagingSet} (h : x.state = .opened) (ho : x.owner ≠ some ring) :
    openSetCheck ring x = .error .notOwner := by
  cases x with
  | free => cases h
  | opened owner items => exact if_neg fun e => ho (congrArg some e)
  | armed owner items id frame => cases h

theorem openSetCheck_ok {ring : WorkRingId} {x : StagingSet} (h : x.state = .opened) (ho : x.owner = some ring) :
    openSetCheck ring x = .ok x.items := by
  cases x with
  | free => cases h
  | opened owner items => exact if_pos (Option.some.inj ho)
  | armed owner items id frame => cases h

section openCheck
variable {s : State} {k : SlotId} {t : Task} {r : Block64} {q : OpenRequest}

theorem State.openCheck_wrongRing (h : t.ring ≠ 0) : s.openCheck t r = .error .wrongRing := if_pos h

theorem State.openCheck_badField (h : t.ring = 0) (hf : ¬OpenInRange r) : s.openCheck t r = .error .badField := by
  unfold State.openCheck
  rw [if_neg (not_not.mpr h)]
  split
  · rfl
  · next q hq => exact absurd (openRequest_range hq) hf

theorem State.openCheck_noRing (h : t.ring = 0) (hq : openRequest r = some q)
    (hn : ¬s.ringActive q.home = true ∨ s.resultRings[q.notice] = none) : s.openCheck t r = .error .noRing := by
  unfold State.openCheck
  rw [if_neg (not_not.mpr h), hq]
  refine if_pos ?_
  rcases hn with hn | hn
  · simp [hn]
  · simp [hn]

/-- What the checks answer once the rings have passed: the set, then the station. -/
theorem State.openCheck_rings (h : t.ring = 0) (hq : openRequest r = some q) (ha : s.ringActive q.home = true)
    (hn : s.resultRings[q.notice] ≠ none) :
    s.openCheck t r = s.openItems q.set >>= fun items =>
      if s.stations[q.id] = .free then .ok (q, items) else .error .stationInUse := by
  unfold State.openCheck
  rw [if_neg (not_not.mpr h), hq]
  refine (if_neg (by simpa [ha] using hn)).trans ?_
  cases s.openItems q.set with
  | error status => rfl
  | ok items => rfl

theorem State.openCheck_set (h : t.ring = 0) (hq : openRequest r = some q) (ha : s.ringActive q.home = true)
    (hn : s.resultRings[q.notice] ≠ none) {status : Status} (hs : s.openItems q.set = .error status) :
    s.openCheck t r = .error status := by
  rw [State.openCheck_rings h hq ha hn, hs]
  rfl

theorem State.openCheck_inUse (h : t.ring = 0) (hq : openRequest r = some q) (ha : s.ringActive q.home = true)
    (hn : s.resultRings[q.notice] ≠ none) {items : List Item} (hs : s.openItems q.set = .ok items)
    (hc : s.stations[q.id] ≠ .free) : s.openCheck t r = .error .stationInUse := by
  rw [State.openCheck_rings h hq ha hn, hs]
  exact if_neg hc

theorem State.openCheck_ok (h : t.ring = 0) (hq : openRequest r = some q) (ha : s.ringActive q.home = true)
    (hn : s.resultRings[q.notice] ≠ none) {items : List Item} (hs : s.openItems q.set = .ok items)
    (hc : s.stations[q.id] = .free) : s.openCheck t r = .ok (q, items) := by
  rw [State.openCheck_rings h hq ha hn, hs]
  exact if_pos hc

theorem execOpenStation_fails (hr : Runs s k t r 0x08) {status : Status} (h : s.openCheck t r = .error status) :
    execOpenStation k s = .next
      { s with slots := s.slots.set k (some (answered t r status (failedOpenBody r 0))) } := by
  rw [execOpenStation, State.executing_of_runs (kind := Kind.openStation) hr, h]
  rfl

theorem execOpenStation_opens (hr : Runs s k t r 0x08) {items : List Item} (h : s.openCheck t r = .ok (q, items))
    (hp : ConsistentProfile (Profile.defaults.merge items)) :
    let c := openedStation q r (Profile.defaults.merge items)
    execOpenStation k s = .next (((s.freeNamed q.set).setStation q.id (.opened c)).answer k t r .ok
      (.openStation (recordByteB r) .idle 0 (recordByte8 r) c.newest.i c.newest.g c.newest.l)) := by
  have hp' := (consistent_iff _).mpr hp
  rw [execOpenStation, State.executing_of_runs (kind := Kind.openStation) hr, h]
  simp only [hp', Bool.not_true, Bool.false_eq_true, if_false]

theorem execOpenStation_invalid (hr : Runs s k t r 0x08) {items : List Item} (h : s.openCheck t r = .ok (q, items))
    (hp : ¬ConsistentProfile (Profile.defaults.merge items)) :
    execOpenStation k s = .next { s with slots := s.slots.set k (some (answered t r .profileInvalid
      (failedOpenBody r (Profile.defaults.merge items).failingRelation))) } := by
  have hp' : (Profile.defaults.merge items).consistent = false := by
    rwa [← consistent_iff, Bool.not_eq_true] at hp
  rw [execOpenStation, State.executing_of_runs (kind := Kind.openStation) hr, h]
  simp only [hp', Bool.not_false, if_true]
  rfl

end openCheck

/-- Settles O33: the checks in their order, then the merge over the defaults and its test. -/
theorem openStation : Obligations.OpenStation := by
  unfold Obligations.OpenStation
  refine ⟨fun s k t r hr => ?_, ?_⟩
  · intro fields fails
    have fail := fun status => execOpenStation_fails (status := status) hr
    refine ⟨fun h => fail _ (State.openCheck_wrongRing h), fun h hf => fail _ (State.openCheck_badField h hf), ?_⟩
    intro id home notice h hf h8 h9 hA active
    have request := fun set hB => openRequest_of (set := set) h8 h9 hA hB hf
    refine ⟨fun hn => ?_, fun ha hn => ?_⟩
    · obtain ⟨set, hB⟩ : ∃ set, openSetId (recordByteB r) = some set := by
        obtain ⟨-, -, -, -, -, -, hb | hb⟩ := hf
        · exact ⟨_, openSetId_val ⟨recordByteB r, hb⟩⟩
        · exact ⟨none, hb ▸ openSetId_none⟩
      exact fail _ (State.openCheck_noRing h (request set hB) (hn.imp_left (mt (s.ringActive_iff home).mp)))
    · have ha' := (s.ringActive_iff home).mpr ha
      refine ⟨fun i hi => ?_, fun hset hc => ?_⟩
      · have hq := request (some i) (hi ▸ openSetId_val i)
        exact ⟨fun hs => fail _ (State.openCheck_set h hq ha' hn (openSetCheck_noSet hs)),
          fun hs ho => fail _ (State.openCheck_set h hq ha' hn (openSetCheck_notOwner hs ho))⟩
      · rcases hset with hb | ⟨i, hi, hs, ho⟩
        · exact fail _ (State.openCheck_inUse h (request none (hb ▸ openSetId_none)) ha' hn rfl hc)
        · exact fail _ (State.openCheck_inUse h (request (some i) (hi ▸ openSetId_val i)) ha' hn
            (openSetCheck_ok hs ho) hc)
  · intro s k t r id home notice w set items hr h h8 h9 hhome hA hsize hdelay hact hw ha hn hc hset p v
    have named : openSetId (recordByteB r) = some set ∧ s.openItems set = .ok items ∧
        (recordByteB r < 8 ∨ recordByteB r = 0xFF) := by
      cases set with
      | none =>
        obtain ⟨hb, rfl⟩ := hset
        exact ⟨hb ▸ openSetId_none, rfl, .inr hb⟩
      | some i =>
        obtain ⟨hb, hs⟩ := hset
        refine ⟨hb ▸ openSetId_val i, ?_, .inl (hb ▸ i.isLt)⟩
        show openSetCheck 0 s.sets[i] = _
        rw [hs]
        rfl
    obtain ⟨hB, hitems, hrange⟩ := named
    have inRange : OpenInRange r := by
      refine ⟨h8 ▸ id.isLt, ⟨?_, ?_⟩, hA ▸ notice.isLt, hsize, hdelay, hact, hrange⟩
      · rw [h9]
        exact Nat.one_le_iff_ne_zero.mpr fun e => hhome (Fin.ext e)
      · rw [h9]
        omega
    have passes := State.openCheck_ok h (openRequest_of h8 h9 hA hB inRange) ((s.ringActive_iff home).mpr ⟨w, hw, ha⟩)
      hn hitems hc
    refine ⟨fun hp => (execOpenStation_opens hr passes hp).trans ?_, execOpenStation_invalid hr passes⟩
    cases set with
    | none => rfl
    | some i => rfl

end Sys2Proof.Machine
end

section
/-! Bytes laid out by a table (R192 to R194): little-endian fields in a row, the table they stand at, and what a reader
of the bytes finds at each of its rows. -/
namespace Sys2Proof.Machine

/-! ## Little-endian bytes -/

@[simp] theorem leBytes_length (n v : Nat) : (leBytes n v).length = n := by
  induction n generalizing v with
  | zero => rfl
  | succ n ih => rw [leBytes, List.length_cons, ih]

theorem leNat_leBytes (n v : Nat) : leNat (leBytes n v) = v % 256 ^ n := by
  induction n generalizing v with
  | zero => rw [pow_zero, Nat.mod_one]; rfl
  | succ n ih =>
    rw [leBytes, leNat, ih, BitVec.toNat_ofNat, pow_succ' 256 n, Nat.mod_mul]

theorem leBytes_zero (n : Nat) : leBytes n 0 = List.replicate n 0 := by
  induction n with
  | zero => rfl
  | succ n ih => rw [leBytes, Nat.zero_div, ih]; rfl

theorem padTo_length (n : Nat) (bytes : List Byte) : (padTo n bytes).length = n := by
  simp [padTo]

theorem padTo_eq_append {n : Nat} {bytes : List Byte} (h : bytes.length ≤ n) :
    padTo n bytes = bytes ++ leBytes (n - bytes.length) 0 := by
  rw [padTo, List.take_append, List.take_of_length_le h, List.take_replicate, leBytes_zero,
    Nat.min_eq_left (Nat.sub_le _ _)]

/-! ## Fields in a row -/

/-- A field of a record as it is written: size and value. -/
abbrev RowField := Nat × Nat

/-- The bytes of fields in a row. -/
def rowBytes (fields : List RowField) : List Byte := fields.flatMap fun x => leBytes x.1 x.2

/-- The size of fields in a row. -/
def rowSize : List RowField → Nat
  | [] => 0
  | x :: rest => x.1 + rowSize rest

/-- The rows of the table that fields in a row fill from an offset on. -/
def placed (offset : Nat) : List RowField → List Content
  | [] => []
  | x :: rest => (offset, x.1, x.2) :: placed (offset + x.1) rest

theorem rowBytes_cons (x : RowField) (rest : List RowField) :
    rowBytes (x :: rest) = leBytes x.1 x.2 ++ rowBytes rest := rfl

theorem rowBytes_append (xs ys : List RowField) :
    rowBytes (xs ++ ys) = rowBytes xs ++ rowBytes ys := List.flatMap_append

theorem rowBytes_length (fields : List RowField) : (rowBytes fields).length = rowSize fields := by
  induction fields with
  | nil => rfl
  | cons x rest ih => rw [rowBytes_cons, List.length_append, leBytes_length, ih, rowSize]

theorem rowSize_append (xs ys : List RowField) : rowSize (xs ++ ys) = rowSize xs + rowSize ys := by
  induction xs with
  | nil => exact (Nat.zero_add _).symm
  | cons x rest ih => rw [List.cons_append, rowSize, rowSize, ih, Nat.add_assoc]

theorem placed_append (offset : Nat) (xs ys : List RowField) :
    placed offset (xs ++ ys) = placed offset xs ++ placed (offset + rowSize xs) ys := by
  induction xs generalizing offset with
  | nil => rfl
  | cons x rest ih => rw [List.cons_append, placed, placed, ih, rowSize, List.cons_append, Nat.add_assoc]

/-- Each field stands at its row. -/
theorem take_drop_of_placed {fields : List RowField} {offset : Nat} {before : List Byte} (h : before.length = offset)
    {x : Content} (hx : x ∈ placed offset fields) :
    ((before ++ rowBytes fields).drop x.1).take x.2.1 = leBytes x.2.1 x.2.2 := by
  induction fields generalizing offset before with
  | nil => cases hx
  | cons y rest ih =>
    rw [rowBytes_cons, ← List.append_assoc]
    rcases List.mem_cons.mp hx with rfl | hx
    · rw [List.append_assoc, List.drop_left' h, List.take_left' (leBytes_length _ _)]
    · exact ih (by rw [List.length_append, h, leBytes_length]) hx

/-- Every byte of fields in a row belongs to one of them. -/
theorem exists_placed {fields : List RowField} {offset a : Nat} (h1 : offset ≤ a) (h2 : a < offset + rowSize fields) :
    ∃ x ∈ placed offset fields, x.1 ≤ a ∧ a < x.1 + x.2.1 := by
  induction fields generalizing offset with
  | nil => rw [rowSize] at h2; omega
  | cons y rest ih =>
    by_cases hy : a < offset + y.1
    · exact ⟨_, List.mem_cons_self, h1, hy⟩
    · rw [rowSize] at h2
      obtain ⟨x, hx, hb⟩ := ih (offset := offset + y.1) (by omega) (by omega)
      exact ⟨x, List.mem_cons_of_mem _ hx, hb⟩

/-! ## Tables -/

/-- Fields in a row from an offset on fill the rows of a table, and those of no row are 0. -/
structure Fills (offset : Nat) (fields : List RowField) (contents : List Content) : Prop where
  row : ∀ x ∈ contents, x ∈ placed offset fields
  rest : ∀ x ∈ placed offset fields, x ∈ contents ∨ x.2.2 = 0

theorem Fills.of_placed (offset : Nat) (fields : List RowField) : Fills offset fields (placed offset fields) :=
  ⟨fun _ h => h, fun _ h => .inl h⟩

/-- Bytes that no row names are written as 0. -/
theorem Fills.zeros (offset size : Nat) : Fills offset [(size, 0)] [] :=
  ⟨fun _ h => absurd h List.not_mem_nil, fun x h => .inr (by rw [List.mem_singleton.mp h])⟩

theorem Fills.append {offset next : Nat} {xs ys : List RowField} {cs ds : List Content} (h : Fills offset xs cs)
    (hn : offset + rowSize xs = next) (h' : Fills next ys ds) : Fills offset (xs ++ ys) (cs ++ ds) := by
  subst hn
  constructor
  · intro x hx
    rw [placed_append]
    exact (List.mem_append.mp hx).elim (fun hx => List.mem_append_left _ (h.row x hx))
      fun hx => List.mem_append_right _ (h'.row x hx)
  · intro x hx
    rw [placed_append] at hx
    exact (List.mem_append.mp hx).elim (fun hx => (h.rest x hx).imp_left (List.mem_append_left _))
      fun hx => (h'.rest x hx).imp_left (List.mem_append_right _)

theorem Fills.of_mem_iff {offset : Nat} {xs : List RowField} {cs ds : List Content} (h : Fills offset xs cs)
    (hd : ∀ x, x ∈ ds ↔ x ∈ cs) : Fills offset xs ds :=
  ⟨fun x hx => h.row x ((hd x).mp hx), fun x hx => (h.rest x hx).imp_left (hd x).mpr⟩

/-- Groups of fields of one size stand at places of that size. -/
theorem Fills.places {α : Type} {size offset : Nat} {fields : α → List RowField} {contents : Nat → α → List Content}
    (hs : ∀ a, rowSize (fields a) = size) (h : ∀ place a, Fills place (fields a) (contents place a)) (l : List α) :
    Fills offset (l.flatMap fields) (l.zipIdx.flatMap fun x => contents (offset + size * x.2) x.1) := by
  have numbered : ∀ (l : List α) (k : Nat), Fills (offset + size * k) (l.flatMap fields)
      ((l.zipIdx k).flatMap fun x => contents (offset + size * x.2) x.1) := by
    intro l
    induction l with
    | nil => exact fun k => .of_placed _ []
    | cons a rest ih =>
      intro k
      rw [List.zipIdx_cons, List.flatMap_cons, List.flatMap_cons]
      refine (h _ a).append ?_ (ih (k + 1))
      rw [hs, Nat.mul_add, Nat.mul_one, Nat.add_assoc]
  exact numbered l 0

theorem rowSize_map {α : Type} (size : Nat) (value : α → Nat) (l : List α) :
    rowSize (l.map fun a => (size, value a)) = size * l.length := by
  induction l with
  | nil => rfl
  | cons a rest ih => rw [List.map_cons, rowSize, ih, List.length_cons, Nat.mul_add, Nat.mul_one, Nat.add_comm]

theorem rowSize_flatMap {α : Type} {size : Nat} {fields : α → List RowField} (hs : ∀ a, rowSize (fields a) = size)
    (l : List α) : rowSize (l.flatMap fields) = size * l.length := by
  induction l with
  | nil => rfl
  | cons a rest ih => rw [List.flatMap_cons, rowSize_append, hs, ih, List.length_cons, Nat.mul_add, Nat.mul_one,
    Nat.add_comm]

/-- The bytes of fields that fill a table are laid out by it. -/
theorem laid_of_fills {length : Nat} {fields : List RowField} {contents : List Content} (h : Fills 0 fields contents)
    (hs : rowSize fields = length) : Laid length contents (rowBytes fields) := by
  have stands : ∀ x ∈ placed 0 fields, ((rowBytes fields).drop x.1).take x.2.1 = leBytes x.2.1 x.2.2 := fun x hx =>
    take_drop_of_placed (before := []) rfl hx
  refine ⟨(rowBytes_length fields).trans hs, fun x hx => ?_, fun a ha hout => ?_⟩
  · rw [stands x (h.row x hx), leNat_leBytes]
  · obtain ⟨x, hx, hlow, hhigh⟩ := exists_placed (fields := fields) (Nat.zero_le a) (by omega)
    rcases h.rest x hx with hc | h0
    · have := hout x hc
      omega
    · have hget : (((rowBytes fields).drop x.1).take x.2.1)[a - x.1]? = some 0 := by
        rw [stands x hx, h0, leBytes_zero, List.getElem?_replicate, if_pos (by omega)]
      rwa [List.getElem?_take_of_lt (by omega), List.getElem?_drop, Nat.add_sub_cancel' hlow] at hget

/-- Fields brought to a length by bytes of 0. -/
theorem padTo_rowBytes {n : Nat} {fields : List RowField} (h : rowSize fields ≤ n) :
    padTo n (rowBytes fields) = rowBytes (fields ++ [(n - rowSize fields, 0)]) := by
  rw [padTo_eq_append (by rwa [rowBytes_length]), rowBytes_append, rowBytes_length]
  exact congrArg _ (List.append_nil _).symm

theorem rowBytes_flatMap {α : Type} (fields : α → List RowField) (l : List α) :
    rowBytes (l.flatMap fields) = l.flatMap fun a => rowBytes (fields a) := by
  induction l with
  | nil => rfl
  | cons a rest ih => rw [List.flatMap_cons, rowBytes_append, ih, List.flatMap_cons]

theorem rowBytes_map {α : Type} (field : α → RowField) (l : List α) :
    rowBytes (l.map field) = l.flatMap fun a => leBytes (field a).1 (field a).2 :=
  List.flatMap_map ..

end Sys2Proof.Machine
end

section
/-! READ_STATION: its checks and the snapshot it takes (R13, R14, R194). -/
namespace Sys2Proof.Machine

/-! ## The fields of a snapshot (R194) -/

/-- The head of a snapshot, to 0x17. -/
def headFields (id : StationId) (state : StationState) (c : Station) : List RowField :=
  [ (1, id.val), (1, state.code), (1, c.homeRing.val), (1, c.noticeRing.val), (2, c.frameLines), (1, c.applyDelay),
    (1, c.loop.code), (1, c.presentMarks), (1, bit c.noticeArmed), (2, c.pendingSet.toNat),
    (4, (c.lastFrame.getD 0).toNat), (2, c.lastMean.getD 0xFFFF), (2, c.lastCompensated.getD 0xFFFF),
    (2, c.lastClip.getD 0xFFFF), (1, c.history.length), (1, c.armed.length) ]

/-- An armed place. -/
def armedFields (sets : Vector StagingSet 8) (i : SetId) : List RowField :=
  [(1, i.val), (3, 0), (4, (sets[i]).frame.toNat)]

/-- The counters, from 0x28. -/
def counterFields (c : Station) : List RowField :=
  [(4, c.measures.toNat), (4, c.decisions.toNat), (4, c.skipped.toNat)]

/-- A history place. -/
def entryFields (e : Entry) : List RowField :=
  [(4, e.frameValue), (1, bit e.effective.isNone), (1, e.span), (2, e.i), (2, e.g), (2, e.l), (6, e.product), (2, 0)]

/-- The profile, from 0xA0. -/
def profileFields (p : Profile) : List RowField :=
  ([ p.innerLo, p.innerHi, p.outerLo, p.outerHi, p.rushLo, p.rushHi, p.pace.code, p.damp, p.intMin, p.intMax, p.gainMax,
      p.lvlMin, p.lvlMax, p.order.code, p.quantum, p.extMax, p.colLo, p.colHi, p.rowLo, p.rowHi ].map
    fun v => (2, v)) ++
  (p.weightRows.toList.map fun w => (4, w.toNat)) ++
  ([ p.clipLimit, p.clipCellsMax, p.gapLimit, p.gapPolicy.code, p.inflight.code, p.noticeMask.toNat ].map
    fun v => (2, v))

/-- A snapshot's fields in a row to 0xF3, each block of places filled up with 0. -/
def snapshotFields (id : StationId) (state : StationState) (c : Station) (sets : Vector StagingSet 8) : List RowField :=
  headFields id state c ++ c.armed.flatMap (armedFields sets) ++ [(16 - 8 * c.armed.length, 0)] ++ counterFields c ++
    [(4, 0)] ++ c.history.flatMap entryFields ++ [(100 - 20 * c.history.length, 0)] ++ [(4, 0)] ++
    profileFields c.profile

/-! ## The bytes of a snapshot are those of its fields -/

theorem rowBytes_headFields (id : StationId) (state : StationState) (c : Station) :
    rowBytes (headFields id state c) =
      byte id.val ++ byte state.code ++ byte c.homeRing.val ++ byte c.noticeRing.val ++ leBytes 2 c.frameLines
      ++ byte c.applyDelay ++ byte c.loop.code ++ byte c.presentMarks ++ byte (bit c.noticeArmed)
      ++ leBytes 2 c.pendingSet.toNat ++ leBytes 4 (c.lastFrame.getD 0).toNat ++ metering c.lastMean
      ++ metering c.lastCompensated ++ metering c.lastClip ++ byte c.history.length ++ byte c.armed.length := by
  simp only [headFields, rowBytes, List.flatMap_cons, List.flatMap_nil, List.append_nil, List.append_assoc, byte,
    metering]

theorem rowBytes_armedFields (sets : Vector StagingSet 8) (i : SetId) :
    rowBytes (armedFields sets i) = armedBytes sets i := by
  simp only [armedFields, rowBytes, List.flatMap_cons, List.flatMap_nil, List.append_nil, List.append_assoc, byte,
    armedBytes]

theorem rowBytes_counterFields (c : Station) :
    rowBytes (counterFields c) = leBytes 4 c.measures.toNat ++ leBytes 4 c.decisions.toNat ++ leBytes 4
      c.skipped.toNat := by
  simp only [counterFields, rowBytes, List.flatMap_cons, List.flatMap_nil, List.append_nil, List.append_assoc]

theorem rowBytes_entryFields (e : Entry) : rowBytes (entryFields e) = e.bytes := by
  simp only [entryFields, rowBytes, List.flatMap_cons, List.flatMap_nil, List.append_nil, List.append_assoc, byte,
    Entry.bytes]

theorem rowBytes_profileFields (p : Profile) : rowBytes (profileFields p) = p.bytes := by
  rw [profileFields, rowBytes_append, rowBytes_append, rowBytes_map, rowBytes_map, rowBytes_map]
  rfl

theorem rowSize_armed (sets : Vector StagingSet 8) (c : Station) :
    rowSize (c.armed.flatMap (armedFields sets)) = 8 * c.armed.length :=
  rowSize_flatMap (size := 8) (fun _ => rfl) _

theorem rowSize_history (c : Station) : rowSize (c.history.flatMap entryFields) = 20 * c.history.length :=
  rowSize_flatMap (size := 20) (fun _ => rfl) _

theorem rowSize_profileFields (p : Profile) : rowSize (profileFields p) = 84 := by
  rw [profileFields, rowSize_append, rowSize_append, rowSize_map 2 (fun v => v), rowSize_map 4,
    rowSize_map 2 (fun v => v), Vector.length_toList]
  rfl

section snapshot
variable (id : StationId) (state : StationState) {c : Station} (sets : Vector StagingSet 8)

theorem rowSize_snapshotFields (hh : c.history.length ≤ 5) (ha : c.armed.length ≤ 2) :
    rowSize (snapshotFields id state c sets) = 244 := by
  have head : rowSize (headFields id state c) = 24 := by simp only [headFields, rowSize]
  have counters : rowSize (counterFields c) = 12 := by simp only [counterFields, rowSize]
  simp only [snapshotFields, rowSize_append, head, counters, rowSize_armed, rowSize_history, rowSize_profileFields,
    rowSize]
  omega

theorem snapshotBytes_eq_rowBytes (hh : c.history.length ≤ 5) (ha : c.armed.length ≤ 2) :
    snapshotBytes id state c sets = rowBytes (snapshotFields id state c sets ++ [(12, 0)]) := by
  have armed : padTo 16 (c.armed.flatMap (armedBytes sets)) =
      rowBytes (c.armed.flatMap (armedFields sets) ++ [(16 - 8 * c.armed.length, 0)]) := by
    rw [← rowSize_armed sets, ← padTo_rowBytes (by rw [rowSize_armed]; omega), rowBytes_flatMap]
    simp only [rowBytes_armedFields]
  have history : padTo 100 (c.history.flatMap Entry.bytes) =
      rowBytes (c.history.flatMap entryFields ++ [(100 - 20 * c.history.length, 0)]) := by
    rw [← rowSize_history, ← padTo_rowBytes (by rw [rowSize_history]; omega), rowBytes_flatMap]
    simp only [rowBytes_entryFields]
  have zeros : leBytes 4 0 = rowBytes [(4, 0)] := (List.append_nil _).symm
  have size := rowSize_snapshotFields id state sets hh ha
  have filled := padTo_rowBytes (n := 256) (fields := snapshotFields id state c sets) (by omega)
  rw [size] at filled
  rw [← filled, snapshotBytes, armed, history, ← rowBytes_headFields, ← rowBytes_profileFields, zeros]
  simp only [snapshotFields, rowBytes_append, rowBytes_counterFields, List.append_assoc]

/-! ## The table of a snapshot -/

/-- The rows of the head. -/
def headRows (c : Station) : List Content :=
  [ (0x00, 1, id.val), (0x01, 1, state.code), (0x02, 1, c.homeRing.val), (0x03, 1, c.noticeRing.val),
    (0x04, 2, c.frameLines), (0x06, 1, c.applyDelay), (0x07, 1, c.loop.code), (0x08, 1, c.presentMarks),
    (0x09, 1, bit c.noticeArmed), (0x0A, 2, c.pendingSet.toNat), (0x0C, 4, (c.lastFrame.getD 0).toNat),
    (0x10, 2, c.lastMean.getD 0xFFFF), (0x12, 2, c.lastCompensated.getD 0xFFFF), (0x14, 2, c.lastClip.getD 0xFFFF),
    (0x16, 1, c.history.length), (0x17, 1, c.armed.length) ]

theorem fills_head : Fills 0 (headFields id state c) (headRows id state c) := .of_placed 0 (headFields id state c)

/-- The rows of the counters. -/
def counterRows (c : Station) : List Content :=
  [(0x28, 4, c.measures.toNat), (0x2C, 4, c.decisions.toNat), (0x30, 4, c.skipped.toNat)]

theorem fills_counters : Fills 0x28 (counterFields c) (counterRows c) := .of_placed 0x28 (counterFields c)

/-- The rows of an armed place. -/
def armedRows (place : Nat) (i : SetId) : List Content := [(place, 1, i.val), (place + 4, 4, (sets[i]).frame.toNat)]

theorem fills_armedPlace (place : Nat) (i : SetId) : Fills place (armedFields sets i) (armedRows sets place i) := by
  constructor <;> simp [armedRows, armedFields, placed]

/-- The rows of a history place. -/
def entryRows (place : Nat) (e : Entry) : List Content :=
  [ (place, 4, e.frameValue), (place + 0x04, 1, bit e.effective.isNone), (place + 0x05, 1, e.span),
    (place + 0x06, 2, e.i), (place + 0x08, 2, e.g), (place + 0x0A, 2, e.l), (place + 0x0C, 6, e.product) ]

theorem fills_entryPlace (place : Nat) (e : Entry) : Fills place (entryFields e) (entryRows place e) := by
  constructor <;> simp [entryRows, entryFields, placed]

theorem fills_profile (p : Profile) : Fills 0xA0 (profileFields p) (profileContents p) := by
  have e : profileContents p = placed 0xA0 (profileFields p) := by
    rw [profileFields, toList_eq_map_finRange]
    rfl
  rw [e]
  exact .of_placed _ _

/-- A snapshot's fields fill its table, part by part. -/
theorem fills_snapshot (hh : c.history.length ≤ 5) (ha : c.armed.length ≤ 2) :
    Fills 0 (snapshotFields id state c sets ++ [(12, 0)])
      (headRows id state c ++ ((c.armed.zipIdx.flatMap fun x => armedRows sets (0x18 + 8 * x.2) x.1) ++ ([] ++
        (counterRows c ++ ([] ++ ((c.history.zipIdx.flatMap fun x => entryRows (0x38 + 20 * x.2) x.1) ++ ([] ++ ([] ++
        (profileContents c.profile ++ []))))))))) := by
  have head : rowSize (headFields id state c) = 24 := by simp only [headFields, rowSize]
  have counters : rowSize (counterFields c) = 12 := by simp only [counterFields, rowSize]
  have armed := Fills.places (offset := 0x18) (fields := armedFields sets) (size := 8) (fun _ => rfl)
    (fills_armedPlace sets) c.armed
  have history := Fills.places (offset := 0x38) (fields := entryFields) (size := 20) (fun _ => rfl) fills_entryPlace
    c.history
  have profile := rowSize_profileFields c.profile
  simp only [snapshotFields, List.append_assoc]
  refine (fills_head id state).append (by rw [head]) (armed.append (by rw [rowSize_armed]) ?_)
  refine (Fills.zeros _ _).append (next := 0x28) (by simp only [rowSize]; omega) ?_
  refine fills_counters.append (next := 0x34) (by rw [counters]) ((Fills.zeros _ _).append (next := 0x38) rfl ?_)
  refine history.append (by rw [rowSize_history]) ((Fills.zeros _ _).append (next := 0x9C) ?_ ?_)
  · simp only [rowSize]
    omega
  · exact (Fills.zeros _ _).append (next := 0xA0) rfl ((fills_profile _).append (next := 0xF4) (by rw [profile])
      (Fills.zeros _ _))

theorem presentMarks_eq (c : Station) : c.presentMarks =
    (if c.lastFrame = none then 0 else 1) + (if c.lastMean = none then 0 else 2) +
      (if c.lastCompensated = none then 0 else 4) + if c.lastClip = none then 0 else 8 := by
  have mark : ∀ {α : Type} (o : Option α) (n : Nat) (d : Decidable (o = none)),
      n * bit o.isSome = @ite Nat (o = none) d 0 n := by
    intro α o n d
    cases o <;> simp [bit]
  rw [Station.presentMarks, ← mark c.lastFrame 1, ← mark c.lastMean 2, ← mark c.lastCompensated 4, ← mark c.lastClip 8,
    Nat.one_mul]

theorem armedRows_eq (i : SetId) (j : Nat) :
    armedRows sets (0x18 + 8 * j) i = [(0x18 + 8 * j, 1, i.val), (0x1C + 8 * j, 4, (sets[i]).frame.toNat)] := by
  rw [armedRows, show 0x18 + 8 * j + 4 = 0x1C + 8 * j by omega]

theorem entryRows_eq (e : Entry) (place : Nat) :
    entryRows place e =
      [ (place, 4, (e.effective.getD 0).toNat), (place + 0x04, 1, if e.effective = none then 1 else 0),
        (place + 0x05, 1, e.span), (place + 0x06, 2, e.i), (place + 0x08, 2, e.g), (place + 0x0A, 2, e.l),
        (place + 0x0C, 6, e.product) ] := by
  have mark : bit e.effective.isNone = if e.effective = none then 1 else 0 := by cases e.effective <;> simp [bit]
  rw [entryRows, mark]
  rfl

theorem snapshotContents_eq (hh : c.history.length ≤ 5) (ha : c.armed.length ≤ 2) :
    snapshotContents id state c sets =
      headRows id state c ++ counterRows c ++ (c.armed.zipIdx.flatMap fun x => armedRows sets (0x18 + 8 * x.2) x.1) ++
        (c.history.zipIdx.flatMap fun x => entryRows (0x38 + 20 * x.2) x.1) ++ profileContents c.profile := by
  have history : (c.older ++ [c.newest]).take 5 = c.history := List.take_of_length_le hh
  simp only [snapshotContents, List.take_of_length_le ha, history, armedRows_eq, entryRows_eq, headRows,
    presentMarks_eq]
  rfl

/-- The bytes of a snapshot are laid out by its table (R194). -/
theorem laid_snapshot (hh : c.older.length ≤ 4) (ha : c.armed.length ≤ 2) :
    Laid 256 (snapshotContents id state c sets) (snapshotBytes id state c sets) := by
  have hh' : c.history.length ≤ 5 := by
    rw [Station.history, List.length_append]
    exact Nat.succ_le_succ hh
  rw [snapshotBytes_eq_rowBytes id state sets hh' ha]
  refine laid_of_fills ((fills_snapshot id state sets hh' ha).of_mem_iff fun x => ?_) ?_
  · rw [snapshotContents_eq id state sets hh' ha]
    simp only [List.mem_append, List.not_mem_nil, or_false, false_or, or_assoc]
    exact or_congr_right or_left_comm
  · rw [rowSize_append, rowSize_snapshotFields id state sets hh' ha]
    rfl

end snapshot

/-! ## READ_STATION -/

section read
variable {s : State} {k : SlotId} {t : Task} {r : Block64} {id : StationId}

theorem State.readCheck_wrongRing (h : t.ring ≠ 0) : s.readCheck t r = .error .wrongRing := if_pos h

theorem State.readCheck_badField (h : t.ring = 0) (hf : 32 ≤ recordByte8 r ∨ (recordAddress r).toNat % 64 ≠ 0) :
    s.readCheck t r = .error .badField := by
  unfold State.readCheck
  rw [if_neg (not_not.mpr h)]
  split
  · rfl
  · next id hid =>
    exact if_pos (hf.resolve_left fun h32 => by rw [idOf_of_le h32] at hid; cases hid)

theorem State.readCheck_free (h : t.ring = 0) (hid : recordByte8 r = id.val) (ha : (recordAddress r).toNat % 64 = 0)
    (hc : s.stations[id] = .free) : s.readCheck t r = .error .noStation := by
  unfold State.readCheck
  simp only [h, hid, idOf_val, ha, hc, Context.station]
  rfl

theorem State.readCheck_ok {c : Station} (h : t.ring = 0) (hid : recordByte8 r = id.val)
    (ha : (recordAddress r).toNat % 64 = 0) (hc : (s.stations[id]).station = some c) :
    s.readCheck t r = .ok (id, c) := by
  unfold State.readCheck
  simp only [h, hid, idOf_val, ha, hc]
  rfl

theorem execReadStation_fails (hr : Runs s k t r 0x0A) {status : Status} (h : s.readCheck t r = .error status) :
    execReadStation k s = .next { s with slots := s.slots.set k (some (answered t r status .blank)) } := by
  rw [execReadStation, State.executing_of_runs (kind := Kind.readStation) hr, h]
  rfl

/-- The completion of a control command that names a station carries that station (R151). -/
theorem stationByte_of_named (hk : Kind.stationAt8.contains (recordKind r) = true) (hid : recordByte8 r = id.val) :
    stationByte r = BitVec.ofNat 8 id.val := by
  rw [stationByte, if_pos hk, hid]

theorem execReadStation_passes (hr : Runs s k t r 0x0A) {c : Station} (h : s.readCheck t r = .ok (id, c))
    (hid : recordByte8 r = id.val) :
    let image := snapshotBytes id (s.stations[id]).state c s.sets
    let done : Completion :=
      { status := .ok, tag := recordTag r, ring := t.ring, station := BitVec.ofNat 8 id.val,
        body := .readStation (s.stations[id]).state c.loop }
    execReadStation k s = .next { s with
      slots := s.slots.set k (some { t with phase := .writing (some r) done (some image) })
      transfers := s.transfers ++ [requested s (.snapshot k) (recordAddress r) (.write image)] } := by
  have named : Kind.stationAt8.contains (recordKind r) = true := by rw [hr.kind]; decide
  rw [execReadStation, State.executing_of_runs (kind := Kind.readStation) hr, h]
  simp only [completionOf, stationByte_of_named named hid]
  rfl

end read

/-- Settles O35: the snapshot's fields fill its table, and the checks come in their order. -/
theorem readStation : Obligations.ReadStation := by
  unfold Obligations.ReadStation
  refine ⟨fun id state c sets hh ha => laid_snapshot id state sets hh ha, rfl, rfl, rfl, rfl, fun s k t r hr => ?_⟩
  intro fails
  have fail := fun status => execReadStation_fails (status := status) hr
  refine ⟨fun h => fail _ (State.readCheck_wrongRing h), fun h hf => fail _ (State.readCheck_badField h hf),
    fun id h hid ha => ⟨fun hc => fail _ (State.readCheck_free h hid ha hc), fun c hc => ⟨?_, ?_⟩⟩⟩
  · exact padTo_length 256 _
  · exact execReadStation_passes hr (State.readCheck_ok h hid ha hc) hid

end Sys2Proof.Machine
end

section
/-! The state after reset is sound: it holds no task, ring, station, set or transfer, and its pointer is on ring 1. -/
namespace Sys2Proof.Machine

theorem reset_workRing (n : WorkRingId) : State.reset.workRings[n] = none := by simp [State.reset]
theorem reset_slot (k : SlotId) : State.reset.slots[k] = none := by simp [State.reset]
theorem reset_resultRing (n : ResultRingId) : State.reset.resultRings[n] = none := by simp [State.reset]
theorem reset_set (i : SetId) : State.reset.sets[i] = .free := by simp [State.reset]
theorem reset_context (id : StationId) : State.reset.stations[id] = .free := by simp [State.reset]

theorem reset_no_workRing {n : WorkRingId} {w : WorkRing} (h : State.reset.workRings[n] = some w) : False := by
  rw [reset_workRing] at h
  cases h

theorem reset_no_resultRing {n : ResultRingId} {q : ResultRing} (h : State.reset.resultRings[n] = some q) : False := by
  rw [reset_resultRing] at h
  cases h

theorem reset_no_task {k : SlotId} {t : Task} (h : State.reset.slots[k] = some t) : False := by
  rw [reset_slot] at h
  cases h

theorem reset_no_station {id : StationId} {c : Station} (h : (State.reset.stations[id]).station = some c) : False := by
  rw [reset_context] at h
  cases h

theorem workRingsSound_reset : WorkRingsSound State.reset where
  pointer := by decide
  run := Nat.zero_le 8
  posted n w h := (reset_no_workRing h).elim
  weight n w h := (reset_no_workRing h).elim

theorem taskTableSound_reset : TaskTableSound State.reset where
  present _ _ h := (reset_no_task h).elim
  counted _ _ h := (reset_no_workRing h).elim
  limited _ _ h := (reset_no_workRing h).elim

theorem resultRingsSound_reset : ResultRingsSound State.reset where
  held u h := by cases h
  size n q h := (reset_no_resultRing h).elim
  room n q h := (reset_no_resultRing h).elim
  order n q h := (reset_no_resultRing h).elim
  rising n q h := (reset_no_resultRing h).elim
  between n q h := (reset_no_resultRing h).elim
  absent n h := rfl
  completion x hx := absurd hx List.not_mem_nil
  single := .nil
  notice x hx := absurd hx List.not_mem_nil

theorem stoppedEmpty_reset : StoppedEmpty State.reset :=
  .of_blocks reset_slot reset_workRing reset_resultRing reset_context reset_set

theorem poolSound_reset : PoolSound State.reset where
  once i := by rw [reset_set]; exact List.nodup_nil
  fits := by decide

theorem armedSound_reset : ArmedSound State.reset where
  short id c h := (reset_no_station h).elim
  member id c h := (reset_no_station h).elim
  order id c h := (reset_no_station h).elim
  listed i owner items id frame h := by rw [reset_set] at h; cases h

theorem profilesSound_reset : ProfilesSound State.reset := fun _ _ h => (reset_no_station h).elim

theorem regulationSound_reset : RegulationSound State.reset where
  lines id c h := (reset_no_station h).elim
  delay id c h := (reset_no_station h).elim
  profile id c h := (reset_no_station h).elim
  entry id c h := (reset_no_station h).elim
  item i it h := by rw [reset_set] at h; cases h

/-- Settles O53: with every bank vacant and no transfer in flight the nine properties are about nothing but the
pointer. -/
theorem resetIsSound : Obligations.ResetIsSound := by
  unfold Obligations.ResetIsSound
  exact ⟨workRingsSound_reset, taskTableSound_reset, resultRingsSound_reset, stoppedEmpty_reset, poolSound_reset,
    armedSound_reset, profilesSound_reset, regulationSound_reset, rfl⟩

end Sys2Proof.Machine
end

section
/-! The ends of a MEASURE before the loop (R29, R36, R40 to R42, R86, R90 to R93). -/
namespace Sys2Proof.Machine

/-! ## What a MEASURE that has passed stage 1 leaves -/

/-- The state after an evaluation of the MEASURE in a slot: the station and sets it leaves, and the slot answered. -/
def afterEvaluation (s : State) (k : SlotId) (t : Task) (r : Block64) (id : StationId) (v : Evaluation) : State :=
  { s with
    sets := v.sets
    stations := s.stations.set id (.opened v.station)
    slots := s.slots.set k (some (answered t r v.status v.body)) }

theorem exec_measure_of {s : State} {k : SlotId} {t : Task} {r : Block64} {id : StationId} {c : Station}
    (h : Measures s k t r id c) :
    exec (.measure k) s =
      .next (afterEvaluation s k t r id (evaluate (recordFrame r) (gridSource r t.grid) c s.sets)) := by
  show execMeasure k s = _
  rw [execMeasure, State.executing_of_runs (kind := Kind.measure) h.runs,
    State.homeCheck_of_obeys h.obeys ((measureAccepted_iff r).mpr h.fields)]
  rfl

/-! ## Stages 2 and 3: staleness and the grid's fetch (R29, R86) -/

section stages
variable {f : Frame} {c : Station} {g : GridSource} {sets : Vector StagingSet 8}

theorem Station.stale_iff : c.stale f = true ↔ ∃ last, c.lastFrame = some last ∧ frameAfter f last = false := by
  unfold Station.stale
  cases c.lastFrame with
  | none => simp
  | some last => simp

theorem Station.not_stale_iff : ¬c.stale f = true ↔ ∀ last, c.lastFrame = some last → frameAfter f last = true := by
  rw [Station.stale_iff]
  push Not
  simp only [ne_eq, Bool.not_eq_false]

theorem gridSource_faulted_iff (r : Block64) (status : GridStatus) :
    (gridSource r status).faulted = true ↔ recordSynth r = false ∧ status = .failed := by
  unfold GridSource.faulted gridSource
  cases recordSynth r <;> simp

theorem evaluate_stale (h : c.stale f = true) :
    evaluate f g c sets =
      { station := { c with measures := c.measures + 1, skipped := c.skipped + 1 }, sets, status := .ok,
        outcome := .skippedStale, mean := none, compensated := none, clip := none, veto := false } :=
  if_pos h

theorem evaluate_faulted (h : ¬c.stale f = true) (hg : g.faulted = true) :
    evaluate f g c sets =
      { station := c.raise .grid, sets, status := .gridFault, outcome := .none, mean := none, compensated := none,
        clip := none, veto := false } :=
  (if_neg h).trans (if_pos hg)

/-- A measurement that is not stale and has its grid goes through stages 4 and 5 (R87, R110). -/
theorem evaluate_goesOn (h : ¬c.stale f = true) (hg : ¬g.faulted = true) :
    evaluate f g c sets =
      let landed := armedStage f (gapStage f c).station sets
      evaluateGrid f g (landed.1.raiseAll (gapStage f c).raises) landed.2 :=
  (if_neg h).trans (if_neg hg)

/-! ## Stages 6 to 9: metering, late measurements and FROZEN (R36, R41, R42, R90 to R93) -/

theorem compensated_eq_none {mean : Nat} (h : c.older ≠ []) (hw : c.profile.inflight = .wait) :
    compensated c mean = none := by
  obtain ⟨first, rest, ho⟩ := List.exists_cons_of_ne_nil h
  simp only [compensated, ho, hw]

theorem compensated_eq_some {mean mc : Nat}
    (h : c.older = [] ∧ mc = mean ∨ ∃ first rest, c.older = first :: rest ∧ c.profile.inflight = .compensate ∧
      mc = min 4095 (mean * c.newest.product / first.product)) :
    compensated c mean = some mc := by
  rcases h with ⟨ho, rfl⟩ | ⟨first, rest, ho, hi, rfl⟩
  · simp only [compensated, ho]
  · simp only [compensated, ho, hi]

theorem evaluateGrid_empty (h : (meter c.profile g.columns g.cells).mean = none) :
    evaluateGrid f g c sets =
      { station := c.record f none none 0, sets, status := .ok, outcome := .empty, mean := none, compensated := none,
        clip := some 0, veto := false } := by
  simp only [evaluateGrid, h]

/-- Late under WAIT: the trim stands, and the measurement is counted as skipped (R90, R91). -/
theorem evaluateGrid_pending {mean : Nat} (h : (meter c.profile g.columns g.cells).mean = some mean)
    (hc : compensated (c.trim f) mean = none) :
    evaluateGrid f g c sets =
      let m := meter c.profile g.columns g.cells
      { station := { (c.trim f).record f (some mean) none m.clip with skipped := c.skipped + 1 }, sets, status := .ok,
        outcome := .skippedPending, mean := some mean, compensated := none, clip := some m.clip, veto := m.veto } := by
  simp only [evaluateGrid, h, hc]
  rfl

theorem evaluateGrid_loop {mean mc : Nat} (h : (meter c.profile g.columns g.cells).mean = some mean)
    (hc : compensated (c.trim f) mean = some mc) :
    evaluateGrid f g c sets = evaluateLoop f (meter c.profile g.columns g.cells) mean mc (c.trim f) sets := by
  simp only [evaluateGrid, h, hc]

theorem evaluateLoop_held {m : Metered} {mean mc : Nat} (h : c.loop = .frozen) :
    evaluateLoop f m mean mc c sets =
      { station := c.record f (some mean) (some mc) m.clip, sets, status := .ok, outcome := .held, mean := some mean,
        compensated := some mc, clip := some m.clip, veto := m.veto } :=
  if_pos h

end stages

/-- Settles O40: the ends in the order of the stages, each the case of one stage of the evaluation. -/
theorem measureEndsEarly : Obligations.MeasureEndsEarly := by
  unfold Obligations.MeasureEndsEarly
  refine ⟨fun s k t r id c hm => ?_, fun s k t r id c hm hfresh hgrid => ?_⟩
  · intro stale
    refine ⟨fun h => ?_, fun h hsynth hfailed => ?_⟩
    · rw [exec_measure_of hm, evaluate_stale (Station.stale_iff.mpr h)]
      rfl
    · rw [exec_measure_of hm, evaluate_faulted (mt Station.stale_iff.mp h)
        ((gridSource_faulted_iff r t.grid).mpr ⟨hsynth, hfailed⟩)]
      rfl
  · intro f gap landed e cells m older
    have hcells : (gridSource r t.grid).cells = cells := by
      cases hs : recordSynth r with
      | true => simp only [GridSource.cells, gridSource, cells, hs, if_true]
      | false => cases hg : t.grid <;> simp [GridSource.cells, gridSource, cells, hs, hg]
    have hmeter : meter e.profile (gridSource r t.grid).columns (gridSource r t.grid).cells = m := by
      rw [hcells]
      rfl
    have ends : exec (.measure k) s =
        .next (afterEvaluation s k t r id (evaluateGrid f (gridSource r t.grid) e landed.2)) := by
      rw [exec_measure_of hm, evaluate_goesOn (Station.not_stale_iff.mpr hfresh)
        fun h => hgrid ((gridSource_faulted_iff r t.grid).mp h).1 ((gridSource_faulted_iff r t.grid).mp h).2]
    refine ⟨fun hmean => ?_, fun mean hmean hlate hwait => ?_, fun mean mc hmean hmc hfrozen => ?_⟩
    · rw [ends, evaluateGrid_empty (by rwa [hmeter])]
      rfl
    · rw [ends, evaluateGrid_pending (by rwa [hmeter]) (compensated_eq_none (c := e.trim f) hlate hwait), hmeter]
      rfl
    · rw [ends, evaluateGrid_loop (by rwa [hmeter]) (compensated_eq_some (c := e.trim f) hmc), hmeter,
        evaluateLoop_held (c := e.trim f) hfrozen]
      rfl

end Sys2Proof.Machine
end

section
/-! Metering (R31 to R37): the weight of a cell, synthetic grids, and the sums over a grid's used cells. -/
namespace Sys2Proof.Machine

/-- The cell that stands where a grid holds none: not valid, so of no weight. -/
abbrev Cell.absent : Cell := ⟨0, 0, false⟩

/-! ## The weight of a cell and synthetic grids (R32, R37) -/

theorem weightOf_eq_extractLsb' (row : BitVec 32) (c : Nat) :
    weightOf row c = (row.extractLsb' (4 * c) 4).toNat := by
  rw [BitVec.extractLsb'_toNat, Nat.shiftRight_eq_div_pow]
  rfl

/-- The column of the cell at row r and column c of a row-major grid (R23). -/
theorem cellNumber_mod {columns c : Nat} (r : Nat) (hc : c < columns) : (r * columns + c) % columns = c := by
  rw [Nat.mul_add_mod', Nat.mod_eq_of_lt hc]

/-- The row of the cell at row r and column c of a row-major grid (R23). -/
theorem cellNumber_div {columns c : Nat} (r : Nat) (hc : c < columns) : (r * columns + c) / columns = r := by
  rw [Nat.add_comm, Nat.add_mul_div_right _ _ (Nat.zero_lt_of_lt hc), Nat.div_eq_of_lt hc, Nat.zero_add]

theorem usedWeight_at (p : Profile) {columns c : Nat} (r : Fin 8) (cell : Cell) (hc : c < columns) :
    usedWeight p columns (r.val * columns + c) cell =
      if (p.colLo ≤ c ∧ c ≤ p.colHi) ∧ (p.rowLo ≤ r.val ∧ r.val ≤ p.rowHi) ∧ cell.valid = true then
        ((p.weightRows[r]).extractLsb' (4 * c) 4).toNat
      else 0 := by
  have hweights : p.weightRows.toList.getD r.val 0 = p.weightRows[r] := by simp
  simp only [usedWeight, cellNumber_mod _ hc, cellNumber_div _ hc, hweights, weightOf_eq_extractLsb', and_assoc]

theorem synthesize_length (ramp : Bool) (base slope columns rows : Nat) :
    (synthesize ramp base slope columns rows).length = columns * rows := by
  rw [synthesize, List.length_map, List.length_range]

theorem synthesize_getElem? (ramp : Bool) (base slope : Nat) {columns rows c r : Nat} (hc : c < columns)
    (hr : r < rows) :
    (synthesize ramp base slope columns rows)[r * columns + c]? = some
      { mean := if ramp then min 4095 (base + (c + r) * slope) else base, clip := 0, valid := true } := by
  have hin : r * columns + c < columns * rows := by
    calc r * columns + c < r * columns + columns := Nat.add_lt_add_left hc _
      _ = (r + 1) * columns := (Nat.succ_mul r columns).symm
      _ ≤ rows * columns := Nat.mul_le_mul_right _ hr
      _ = columns * rows := Nat.mul_comm _ _
  rw [synthesize, List.getElem?_map, List.getElem?_range hin, Option.map_some, cellNumber_mod r hc, cellNumber_div r hc]

/-! ## The sums over the cells (R33, R34) -/

section sums
variable (p : Profile) (columns : Nat)

theorem sumCells_weight (k : Nat) (cells : List Cell) :
    (sumCells p columns k cells).weight =
      ∑ j ∈ Finset.range cells.length, usedWeight p columns (k + j) (cells.getD j .absent) := by
  induction cells generalizing k with
  | nil => rfl
  | cons cell rest ih =>
    rw [List.length_cons, Finset.sum_range_succ', sumCells, ih]
    simp only [List.getD_cons_succ, List.getD_cons_zero, Nat.add_zero, Nat.add_assoc, Nat.add_comm 1]
    exact Nat.add_comm _ _

theorem sumCells_weighted (k : Nat) (cells : List Cell) :
    (sumCells p columns k cells).weighted = ∑ j ∈ Finset.range cells.length,
      usedWeight p columns (k + j) (cells.getD j .absent) * (cells.getD j .absent).mean := by
  induction cells generalizing k with
  | nil => rfl
  | cons cell rest ih =>
    rw [List.length_cons, Finset.sum_range_succ', sumCells, ih]
    simp only [List.getD_cons_succ, List.getD_cons_zero, Nat.add_zero, Nat.add_assoc, Nat.add_comm 1]
    exact Nat.add_comm _ _

/-- Cell k is used and its clip fraction is at the limit or above (R34). -/
def clips (k : Nat) (cell : Cell) : Bool :=
  decide (0 < usedWeight p columns k cell) && decide (p.clipLimit ≤ cell.clip)

theorem clips_iff (k : Nat) (cell : Cell) :
    clips p columns k cell = true ↔ 0 < usedWeight p columns k cell ∧ p.clipLimit ≤ cell.clip := by
  rw [clips, Bool.and_eq_true, decide_eq_true_iff, decide_eq_true_iff]

theorem sumCells_clipped (k : Nat) (cells : List Cell) :
    (sumCells p columns k cells).clipped =
      ((List.range cells.length).filter fun j => clips p columns (k + j) (cells.getD j .absent)).length := by
  induction cells generalizing k with
  | nil => rfl
  | cons cell rest ih =>
    rw [List.length_cons, List.range_succ_eq_map, List.filter_cons, List.filter_map, sumCells, ih]
    simp only [Function.comp_def, Nat.succ_eq_add_one, List.getD_cons_succ, List.getD_cons_zero, Nat.add_zero,
      Nat.add_assoc, Nat.add_comm 1, ← clips_iff]
    split
    · rw [List.length_cons, List.length_map, Nat.add_comm]
    · rw [List.length_map, Nat.zero_add]

/-- A weighted sum of 12-bit means is at most 4095 times the weight. -/
theorem sumCells_weighted_le {cells : List Cell} (h : ∀ x ∈ cells, x.mean ≤ 4095) (k : Nat) :
    (sumCells p columns k cells).weighted ≤ 4095 * (sumCells p columns k cells).weight := by
  induction cells generalizing k with
  | nil => exact le_rfl
  | cons cell rest ih =>
    have bounds := Nat.mul_le_mul_left (usedWeight p columns k cell) (h cell List.mem_cons_self)
    have tail := ih (fun x hx => h x (List.mem_cons_of_mem _ hx)) (k + 1)
    simp only [sumCells]
    omega

/-- Only a weighted cell is counted as clipped. -/
theorem sumCells_clipped_of_weight_zero {cells : List Cell} {k : Nat} (h : (sumCells p columns k cells).weight = 0) :
    (sumCells p columns k cells).clipped = 0 := by
  induction cells generalizing k with
  | nil => rfl
  | cons cell rest ih =>
    obtain ⟨hw, hrest⟩ := Nat.add_eq_zero_iff.mp h
    have unused : ¬(0 < usedWeight p columns k cell ∧ p.clipLimit ≤ cell.clip) := fun hc => hc.1.ne' hw
    show (if _ then 1 else 0) + _ = 0
    rw [if_neg unused, ih hrest]

/-- No cell is counted twice. -/
theorem sumCells_clipped_le (k : Nat) (cells : List Cell) :
    (sumCells p columns k cells).clipped ≤ cells.length := by
  rw [sumCells_clipped]
  exact (List.length_filter_le _ _).trans_eq List.length_range

end sums

/-- Settles O47: the recursion of `sumCells` is the sums over the grid, and a cell's number is its column and row. -/
theorem meteringIsTheWeightedMean : Obligations.MeteringIsTheWeightedMean := by
  unfold Obligations.MeteringIsTheWeightedMean
  refine ⟨fun p columns c r cell hc _ => usedWeight_at p r cell hc, fun ramp base slope columns rows =>
    ⟨synthesize_length ramp base slope columns rows, fun c r hc hr => synthesize_getElem? ramp base slope hc hr⟩, ?_⟩
  intro p columns cells hcells used weight weighted clipped m
  have hweight : (sumCells p columns 0 cells).weight = weight := by
    simp only [sumCells_weight, Nat.zero_add]; rfl
  have hweighted : (sumCells p columns 0 cells).weighted = weighted := by
    simp only [sumCells_weighted, Nat.zero_add]; rfl
  have hclipped : (sumCells p columns 0 cells).clipped = clipped := by
    simp only [sumCells_clipped, Nat.zero_add]; rfl
  have hmean : m.mean = if weight = 0 then none else some (weighted / weight) := by
    rw [← hweight, ← hweighted]; rfl
  have hbound : weighted ≤ 4095 * weight := by
    rw [← hweight, ← hweighted]
    exact sumCells_weighted_le p columns hcells 0
  refine ⟨fun h => ⟨by rw [hmean, if_neg h], Nat.div_le_of_le_mul (hbound.trans_eq (Nat.mul_comm _ _))⟩, fun h => ?_,
    hclipped, sumCells_clipped_le p columns 0 cells, decide_eq_true_iff⟩
  have hclip : m.clip = 0 := sumCells_clipped_of_weight_zero p columns (hweight.trans h)
  refine ⟨by rw [hmean, if_pos h], hclip, decide_eq_false fun hv => ?_⟩
  exact Nat.not_lt_zero _ (hclip ▸ hv : p.clipCellsMax < 0)

end Sys2Proof.Machine
end

section
/-! The end of a record read (R26, R126, R128, R177): the slot holds the record or the unreadable mark, and the written
taken index moves. -/
namespace Sys2Proof.Machine

theorem fetchesGrid_iff (ring : WorkRingId) (r : Block64) :
    fetchesGrid ring r = true ↔ recordKind r = 0x10 ∧ ring ≠ 0 ∧ recordSynth r = false ∧
      (1 ≤ recordByte9 r ∧ recordByte9 r ≤ 8) ∧ (1 ≤ recordByteA r ∧ recordByteA r ≤ 8) ∧
      (recordAddress r).toNat % 4 = 0 := by
  simp only [fetchesGrid, Bool.and_eq_true, beq_iff_eq, decide_eq_true_eq, Bool.not_eq_true', gridAccepted_iff,
    and_assoc, Kind.measure]
  constructor
  · rintro ⟨kind, station, real, c1, c8, r1, r8, aligned⟩
    exact ⟨kind, station, real, c1, c8, r1, r8, aligned real⟩
  · rintro ⟨kind, station, real, c1, c8, r1, r8, aligned⟩
    exact ⟨kind, station, real, c1, c8, r1, r8, fun _ => aligned⟩

theorem WorkRing.fault_eq (w : WorkRing) :
    w.fault = { w with state := if w.state = .active then .faulted else w.state } := by
  obtain ⟨state, _, _, _, _, _, _, _, _⟩ := w
  cases state <;> rfl

/-- The written taken index of a ring, once only the listed transfers are in flight: the index of its oldest read, or the
taken index (R126). -/
def writtenAfter (rest : List Transfer) (n : WorkRingId) (w : WorkRing) : RingIndex :=
  (rest.findSome? (Transfer.recordIndex n)).getD w.taken

/-- A transfer that is no record read of the ring leaves the written taken index where it is. -/
theorem writtenAfter_append (rest : List Transfer) {x : Transfer} {n : WorkRingId} (w : WorkRing)
    (h : x.recordIndex n = none) : writtenAfter (rest ++ [x]) n w = writtenAfter rest n w := by
  simp only [writtenAfter, List.findSome?_append, List.findSome?_cons, List.findSome?_nil, h, Option.or_none]

theorem State.advanceWritten_of {s : State} {n : WorkRingId} {w : WorkRing} (h : s.workRings[n] = some w) :
    s.advanceWritten n = { s with
      workRings := s.workRings.set n (some { w with written := writtenAfter s.transfers n w })
      transfers := s.transfers ++ [takenWriteBack s n (writtenAfter s.transfers n w)] } := by
  unfold State.advanceWritten
  rw [h]
  rfl

section ends
variable {s : State} {k : SlotId} {t : Task} {w : WorkRing} {x : Transfer} {e : Nat}

/-- The record of a task has arrived: the slot holds it, and the written taken index advances. -/
theorem execRecordReadDone_of (r : Block64) (ht : s.slots[k] = some t) (hp : t.phase = .reading)
    (hx : oldest s (.recordRead k t.ring t.index) e = some x) (hr : ∃ n, x.payload = .read n)
    (hf : x.failing = false) :
    execRecordReadDone k r s e = .next ((({ s with
      transfers := without s (.recordRead k t.ring t.index) e } : State).holdRecord k t r).advanceWritten t.ring) := by
  unfold execRecordReadDone
  simp only [ht, hp, State.endDone_read hx hf hr]

/-- A MEASURE whose grid is fetched: FETCHING, its grid read requested before the write-back (R26, R126). -/
theorem execRecordReadDone_fetches {r : Block64} (ht : s.slots[k] = some t) (hp : t.phase = .reading)
    (hw : s.workRings[t.ring] = some w) (hx : oldest s (.recordRead k t.ring t.index) e = some x)
    (hr : ∃ n, x.payload = .read n) (hf : x.failing = false) (hg : fetchesGrid t.ring r = true) :
    let rest := without s (.recordRead k t.ring t.index) e
    execRecordReadDone k r s e = .next { s with
      slots := s.slots.set k (some { t with phase := .fetching r, grid := .inFlight })
      workRings := s.workRings.set t.ring (some { w with written := writtenAfter rest t.ring w })
      transfers := rest ++ [requested s (.gridRead k) (recordAddress r) (.read (4 * recordByte9 r * recordByteA r)),
        takenWriteBack s t.ring (writtenAfter rest t.ring w)] } := by
  intro rest
  rw [execRecordReadDone_of r ht hp hx hr hf, State.holdRecord, if_pos hg,
    State.advanceWritten_of (w := w) (by exact hw)]
  simp only [State.issue_transfers, State.setSlot_transfers, List.append_assoc,
    writtenAfter_append _ w (x := ⟨.gridRead k, _, _, _, _, _⟩) rfl]
  rfl

/-- Any other record: QUEUED with it (R126, R128). -/
theorem execRecordReadDone_queues {r : Block64} (ht : s.slots[k] = some t) (hp : t.phase = .reading)
    (hw : s.workRings[t.ring] = some w) (hx : oldest s (.recordRead k t.ring t.index) e = some x)
    (hr : ∃ n, x.payload = .read n) (hf : x.failing = false) (hg : ¬fetchesGrid t.ring r = true) :
    let rest := without s (.recordRead k t.ring t.index) e
    execRecordReadDone k r s e = .next { s with
      slots := s.slots.set k (some { t with phase := .queued (some r) })
      workRings := s.workRings.set t.ring (some { w with written := writtenAfter rest t.ring w })
      transfers := rest ++ [takenWriteBack s t.ring (writtenAfter rest t.ring w)] } := by
  intro rest
  rw [execRecordReadDone_of r ht hp hx hr hf, State.holdRecord, if_neg hg]
  exact congrArg _ (State.advanceWritten_of hw)

/-- The read failed: the slot holds the unreadable mark, an ACTIVE ring is FAULTED, and the written taken index advances
(R177). -/
theorem execRecordReadFault_of (ht : s.slots[k] = some t) (hp : t.phase = .reading)
    (hw : s.workRings[t.ring] = some w) (hx : oldest s (.recordRead k t.ring t.index) e = some x)
    (hr : ∃ n, x.payload = .read n) :
    execRecordReadFault k s e = .next (({ s with
      slots := s.slots.set k (some { t with phase := .queued none })
      workRings := s.workRings.set t.ring (some w.fault)
      transfers := without s (.recordRead k t.ring t.index) e } : State).advanceWritten t.ring) := by
  unfold execRecordReadFault
  simp only [ht, hp, State.endFailed_read hx hr, State.setSlot_workRings, hw]
  rfl

theorem execRecordReadFault_faults (ht : s.slots[k] = some t) (hp : t.phase = .reading)
    (hw : s.workRings[t.ring] = some w) (hx : oldest s (.recordRead k t.ring t.index) e = some x)
    (hr : ∃ n, x.payload = .read n) :
    let rest := without s (.recordRead k t.ring t.index) e
    execRecordReadFault k s e = .next { s with
      slots := s.slots.set k (some { t with phase := .queued none })
      workRings := s.workRings.set t.ring (some { w with
        state := if w.state = .active then .faulted else w.state, written := writtenAfter rest t.ring w })
      transfers := rest ++ [takenWriteBack s t.ring (writtenAfter rest t.ring w)] } := by
  intro rest
  have ring : (s.workRings.set t.ring (some w.fault))[t.ring] = some w.fault := by rw [get_set, if_pos rfl]
  rw [execRecordReadFault_of ht hp hw hx hr, State.advanceWritten_of (w := w.fault) (by exact ring), WorkRing.fault_eq]
  simp only [Vector.set_set]
  rfl

end ends

/-- Settles O19: the three ways a record read ends, by whether it failed and whether the record fetches a grid. -/
theorem recordReadEnds : Obligations.RecordReadEnds := by
  unfold Obligations.RecordReadEnds
  refine ⟨fun s k t r w x e ht hp hw hx hr hf => ⟨fun hg => ?_, fun hg => ?_⟩,
    fun s k t w x e ht hp hw hx hr => execRecordReadFault_faults ht hp hw hx ⟨_, hr⟩⟩
  · exact execRecordReadDone_fetches ht hp hw hx ⟨_, hr⟩ hf ((fetchesGrid_iff t.ring r).mpr hg)
  · exact execRecordReadDone_queues ht hp hw hx ⟨_, hr⟩ hf (mt (fetchesGrid_iff t.ring r).mp hg)

end Sys2Proof.Machine
end

section
/-! A MEASURE that reaches the loop (R45 to R49, R56, R57): the move of stage 10, the allocation and push of stages 11 and
12, the exit state of stage 13, and what stage 14 records and reports. -/
namespace Sys2Proof.Machine

/-! ## The push and the entry of an exit state (R20, R48, R80, R81) -/

section push
variable (x : Frame) (entry : Entry) (c : Station)

/-- A push changes the history alone. -/
theorem Station.push_eq :
    c.push x entry = { c with
      older := if c.newest.survives x then c.history else c.history.filter (·.survives x), newest := entry } := by
  unfold Station.push
  split <;> rfl

end push

/-- The pending set once an exit state is entered: its condition joins, unless the station is in that state. -/
def pendingAfter (c : Station) (exit : LoopState) (bits : Conditions) : Conditions :=
  if c.loop = exit then c.pendingSet else joined c bits

theorem enter_eq {exit : LoopState} {k : Condition} (h : exit.condition = some k) (c : Station) :
    enter exit c = { c with loop := exit, pendingSet := pendingAfter c exit k.bit } := by
  by_cases hc : c.loop = exit
  · rw [enter, if_pos hc.symm, pendingAfter, if_pos hc, ← hc]
  · rw [enter, if_neg (Ne.symm hc), pendingAfter, if_neg hc, h]
    rfl

/-! ## The decision of stage 10 (R45, R46, R49) -/

section stages
variable {f : Frame} {c : Station} {veto : Bool} {mc product : Nat}

/-- The lower end of the band that holds a station: the outer band's in SETTLED, else the inner band's. -/
def bandLo (p : Profile) (entry : LoopState) : Nat := if entry = .settled then p.outerLo else p.innerLo

/-- The upper end of that band. -/
def bandHi (p : Profile) (entry : LoopState) : Nat := if entry = .settled then p.outerHi else p.innerHi

theorem chooseMove_eq (p : Profile) (entry : LoopState) (veto : Bool) (mc : Nat) :
    chooseMove p entry veto mc =
      if veto then .veto else if mc < bandLo p entry then .up else if bandHi p entry < mc then .down
      else .rest .settled := by
  unfold chooseMove bandLo bandHi
  by_cases h : entry = .settled
  · simp only [h, if_true]
  · simp only [h, if_false]

/-- The move of stage 10 allocates a product: of the veto response, of a step up or of a step down. -/
def Allocates (c : Station) (veto : Bool) (mc product : Nat) : Prop :=
  veto = true ∧ product = c.newest.product * 3 / 4 ∨
  veto = false ∧ mc < bandLo c.profile c.loop ∧ product = stepProduct c.profile c.newest.product mc true ∨
  veto = false ∧ bandHi c.profile c.loop < mc ∧ bandLo c.profile c.loop ≤ mc ∧
    product = stepProduct c.profile c.newest.product mc false

theorem Allocates.of_veto (h : Allocates c true mc product) : product = vetoProduct c.newest.product := by
  simpa [Allocates, vetoProduct] using h

theorem Allocates.of_dark (h : Allocates c false mc product) (hlo : mc < bandLo c.profile c.loop) :
    product = stepProduct c.profile c.newest.product mc true := by
  simpa [Allocates, hlo, Nat.not_le.mpr hlo] using h

theorem Allocates.of_bright (h : Allocates c false mc product) (hlo : bandLo c.profile c.loop ≤ mc) :
    bandHi c.profile c.loop < mc ∧ product = stepProduct c.profile c.newest.product mc false := by
  simpa [Allocates, hlo, Nat.not_lt.mpr hlo] using h

/-- In the band the station settles. -/
theorem loopStage_rest (hv : veto = false) (hlo : bandLo c.profile c.loop ≤ mc) (hhi : mc ≤ bandHi c.profile c.loop) :
    loopStage f veto mc c = ⟨enter .settled c, false⟩ := by
  have h : chooseMove c.profile c.loop veto mc = .rest .settled := by
    rw [chooseMove_eq, hv, if_neg Bool.false_ne_true, if_neg (Nat.not_lt.mpr hlo), if_neg (Nat.not_lt.mpr hhi)]
  simp only [loopStage, h]

theorem loopStage_veto :
    loopStage f true mc c =
      let r := moveTo f (vetoProduct c.newest.product) c
      ⟨(enter .seeking r.station).raise .highlight, r.pushed⟩ := by
  have h : chooseMove c.profile c.loop true mc = .veto := by rw [chooseMove_eq, if_pos rfl]
  simp only [loopStage, h]

theorem loopStage_up (hlo : mc < bandLo c.profile c.loop) :
    loopStage f false mc c =
      let r := moveTo f (stepProduct c.profile c.newest.product mc true) c
      ⟨enter (exitAfter r.pushed true) r.station, r.pushed⟩ := by
  have h : chooseMove c.profile c.loop false mc = .up := by
    rw [chooseMove_eq, if_neg Bool.false_ne_true, if_pos hlo]
  simp only [loopStage, h]

theorem loopStage_down (hlo : bandLo c.profile c.loop ≤ mc) (hhi : bandHi c.profile c.loop < mc) :
    loopStage f false mc c =
      let r := moveTo f (stepProduct c.profile c.newest.product mc false) c
      ⟨enter (exitAfter r.pushed false) r.station, r.pushed⟩ := by
  have h : chooseMove c.profile c.loop false mc = .down := by
    rw [chooseMove_eq, if_neg Bool.false_ne_true, if_neg (Nat.not_lt.mpr hlo), if_pos hhi]
  simp only [loopStage, h]

/-! ## Allocation and push (R47, R56, R72) -/

/-- The values allocated for a product differ from those of the newest entry. -/
def Station.Moved (c : Station) (product : Nat) : Prop :=
  let v := decompose c.profile c.frameLines product
  v.i ≠ c.newest.i ∨ v.g ≠ c.newest.g ∨ v.l ≠ c.newest.l

/-- The station after the push of the entry allocated for a product. -/
def Station.allocate (f : Frame) (product : Nat) (c : Station) : Station :=
  let x := f + BitVec.ofNat 32 c.applyDelay
  c.push x (entryOf c.frameLines (some x) (decompose c.profile c.frameLines product))

theorem Station.moved_iff :
    c.Moved product ↔ ¬(decompose c.profile c.frameLines product).same c.newest = true := by
  simp only [Station.Moved, Settings.same, Bool.and_eq_true, beq_iff_eq, and_assoc, not_and_or, ne_eq]

theorem moveTo_moved (h : c.Moved product) : moveTo f product c = ⟨c.allocate f product, true⟩ :=
  if_neg (Station.moved_iff.mp h)

theorem moveTo_kept (h : ¬c.Moved product) : moveTo f product c = ⟨c, false⟩ :=
  if_pos (not_not.mp (mt Station.moved_iff.mpr h))

/-! ## The exit of stage 13 (R46 to R48) -/

/-- HIGHLIGHT joins the pending set with the veto response. -/
def highlightBits (p : Profile) (veto : Bool) : Conditions := if veto then 0x010#9 &&& p.noticeMask else 0#9

@[simp] theorem highlightBits_false (p : Profile) : highlightBits p false = 0#9 := rfl

@[simp] theorem Station.allocate_profile : (c.allocate f product).profile = c.profile := Station.push_profile _ _ _

@[simp] theorem pendingAfter_allocate (exit : LoopState) (bits : Conditions) :
    pendingAfter (c.allocate f product) exit bits = pendingAfter c exit bits := by
  unfold pendingAfter joined Station.allocate
  rw [Station.push_eq]

/-- A product whose values differ is pushed, and the station seeks. -/
theorem loopStage_moved (ha : Allocates c veto mc product) (hm : c.Moved product) :
    loopStage f veto mc c =
      ⟨{ c.allocate f product with
          loop := .seeking
          pendingSet := pendingAfter c .seeking 0x002#9 ||| highlightBits c.profile veto }, true⟩ := by
  have seeks := enter_eq (exit := .seeking) (k := .seek) rfl (c.allocate f product)
  rw [pendingAfter_allocate] at seeks
  rcases ha with ⟨rfl, rfl⟩ | ⟨rfl, hlo, rfl⟩ | ⟨rfl, hhi, hlo, rfl⟩
  · simp only [loopStage_veto, vetoProduct, moveTo_moved hm, seeks, Station.raise, Station.allocate_profile]
    rfl
  · simp only [loopStage_up hlo, moveTo_moved hm, exitAfter, if_true, seeks, highlightBits_false, BitVec.or_zero]
    rfl
  · simp only [loopStage_down hlo hhi, moveTo_moved hm, exitAfter, if_true, seeks, highlightBits_false, BitVec.or_zero]
    rfl

/-- The veto response without new values leaves the history, and the station seeks. -/
theorem loopStage_kept_veto (ha : Allocates c veto mc product) (hm : ¬c.Moved product) (hv : veto = true) :
    loopStage f veto mc c =
      ⟨{ c with loop := .seeking, pendingSet := pendingAfter c .seeking 0x002#9 ||| highlightBits c.profile veto },
        false⟩ := by
  subst hv
  rw [ha.of_veto] at hm
  simp only [loopStage_veto, moveTo_kept hm, enter_eq (exit := .seeking) (k := .seek) rfl]
  rfl

/-- A step up without new values leaves the station pinned dark. -/
theorem loopStage_kept_dark (ha : Allocates c veto mc product) (hm : ¬c.Moved product) (hv : veto = false)
    (hlo : mc < bandLo c.profile c.loop) :
    loopStage f veto mc c =
      ⟨{ c with loop := .pinnedDark, pendingSet := pendingAfter c .pinnedDark 0x004#9 }, false⟩ := by
  subst hv
  rw [ha.of_dark hlo] at hm
  simp only [loopStage_up hlo, moveTo_kept hm]
  exact congrArg (LoopResult.mk · false) (enter_eq (k := .pinDark) rfl c)

/-- A step down without new values leaves the station pinned bright. -/
theorem loopStage_kept_bright (ha : Allocates c veto mc product) (hm : ¬c.Moved product) (hv : veto = false)
    (hlo : bandLo c.profile c.loop ≤ mc) :
    loopStage f veto mc c =
      ⟨{ c with loop := .pinnedBright, pendingSet := pendingAfter c .pinnedBright 0x008#9 }, false⟩ := by
  subst hv
  obtain ⟨hhi, hp⟩ := ha.of_bright hlo
  rw [hp] at hm
  simp only [loopStage_down hlo hhi, moveTo_kept hm]
  exact congrArg (LoopResult.mk · false) (enter_eq (k := .pinBright) rfl c)

/-! ## Stage 14 (R57, R58) -/

/-- What an evaluation that reached the loop leaves and reports. -/
def loopEvaluation (m : Metered) (mean mc : Nat) (sets : Vector StagingSet 8) (outcome : MeasureOutcome) (u : Station) :
    Evaluation :=
  { station := u, sets, status := .ok, outcome, mean := some mean, compensated := some mc, clip := some m.clip,
    veto := m.veto }

variable {m : Metered} {mean : Nat} {sets : Vector StagingSet 8} {u : Station}

theorem evaluateLoop_decided (hl : c.loop ≠ .frozen) (h : loopStage f m.veto mc c = ⟨u, true⟩) :
    evaluateLoop f m mean mc c sets =
      loopEvaluation m mean mc sets .decided
        { u.record f (some mean) (some mc) m.clip with decisions := u.decisions + 1 } := by
  rw [evaluateLoop, if_neg hl, h]
  rfl

theorem evaluateLoop_unchanged (hl : c.loop ≠ .frozen) (h : loopStage f m.veto mc c = ⟨u, false⟩) :
    evaluateLoop f m mean mc c sets =
      loopEvaluation m mean mc sets .unchanged (u.record f (some mean) (some mc) m.clip) := by
  rw [evaluateLoop, if_neg hl, h]
  rfl

/-- New values are pushed onto the station as stage 14 records it: the push reads and writes the history alone. -/
theorem evaluateLoop_moved (hl : c.loop ≠ .frozen) (ha : Allocates c m.veto mc product) (hm : c.Moved product) :
    evaluateLoop f m mean mc c sets = loopEvaluation m mean mc sets .decided
      { (c.record f (some mean) (some mc) m.clip).push (f + BitVec.ofNat 32 c.applyDelay)
          (entryOf c.frameLines (some (f + BitVec.ofNat 32 c.applyDelay))
            (decompose c.profile c.frameLines product)) with
        loop := .seeking
        pendingSet := pendingAfter c .seeking 0x002#9 ||| highlightBits c.profile m.veto
        decisions := c.decisions + 1 } := by
  rw [evaluateLoop_decided hl (loopStage_moved ha hm)]
  simp only [Station.allocate, Station.push_eq]
  rfl

end stages

/-! ## The whole command -/

/-- The cells a MEASURE meters: the synthetic grid of its record, or those its slot holds (R31, R37). -/
theorem gridSource_cells (r : Block64) (status : GridStatus) :
    (gridSource r status).cells =
      if recordSynth r then
        synthesize (recordByteB r == 1) (recordBase r) (recordSlope r) (recordByte9 r) (recordByteA r)
      else match status with
        | .held cells => cells
        | _ => [] := by
  unfold GridSource.cells gridSource
  cases recordSynth r with
  | true => rfl
  | false => cases status <;> rfl

/-- A MEASURE that is not stale and has its grid goes through stages 4 and 5 to metering. -/
theorem exec_measure_goesOn {s : State} {k : SlotId} {t : Task} {r : Block64} {id : StationId} {c : Station}
    (hm : Measures s k t r id c) (hfresh : ∀ last, c.lastFrame = some last → frameAfter (recordFrame r) last = true)
    (hgrid : recordSynth r = false → t.grid ≠ .failed) :
    let gap := gapStage (recordFrame r) c
    let landed := armedStage (recordFrame r) gap.station s.sets
    exec (.measure k) s = .next (afterEvaluation s k t r id
      (evaluateGrid (recordFrame r) (gridSource r t.grid) (landed.1.raiseAll gap.raises) landed.2)) := by
  have unfaulted : ¬(gridSource r t.grid).faulted = true := fun h =>
    have ⟨synth, failed⟩ := (gridSource_faulted_iff r t.grid).mp h
    hgrid synth failed
  rw [exec_measure_of hm, evaluate_goesOn (Station.not_stale_iff.mpr hfresh) unfaulted]

/-- Settles O41: the ends of stage 10 by the band and the veto, and by whether the values allocated are new. -/
theorem measureMovesTheLoop : Obligations.MeasureMovesTheLoop := by
  unfold Obligations.MeasureMovesTheLoop
  intro s k t r id c mean mc hm hfresh hgrid f gap landed e p cells m older hmean hmc hloop lo hi recorded leaves raising
  have hmeter : meter e.profile (gridSource r t.grid).columns (gridSource r t.grid).cells = m := by
    rw [gridSource_cells]
    rfl
  have reaches : exec (.measure k) s =
      .next (afterEvaluation s k t r id (evaluateLoop f m mean mc (e.trim f) landed.2)) := by
    rw [exec_measure_goesOn hm hfresh hgrid, evaluateGrid_loop (by rwa [hmeter])
      (compensated_eq_some (c := e.trim f) hmc), hmeter]
  have unchanged {u : Station} (hu : loopStage f m.veto mc (e.trim f) = ⟨u, false⟩) :
      leaves .unchanged (u.record f (some mean) (some mc) m.clip) := by
    rw [evaluateLoop_unchanged (c := e.trim f) hloop hu] at reaches
    exact reaches
  refine ⟨fun hv hlo hhi => ?_, fun product ha => ⟨fun hmoved => ?_, fun hkept hv => ?_, fun hkept hv hlo => ?_,
    fun hkept hv hlo => ?_⟩⟩
  · have settles := unchanged (loopStage_rest hv hlo hhi)
    rw [enter_eq (k := .settle) rfl] at settles
    exact settles
  · rw [evaluateLoop_moved (c := e.trim f) hloop ha hmoved] at reaches
    exact reaches
  · exact unchanged (loopStage_kept_veto (c := e.trim f) ha hkept hv)
  · exact unchanged (loopStage_kept_dark (c := e.trim f) ha hkept hv hlo)
  · exact unchanged (loopStage_kept_bright (c := e.trim f) ha hkept hv hlo)

end Sys2Proof.Machine
end

section
/-! The products of the loop's steps (R51 to R55): each pace's step as the spec writes it, and that it moves the product
the way it is meant to, within its bounds. -/
namespace Sys2Proof.Machine

/-! ## The ratio paces (R51, R52) -/

theorem stepProduct_ratio {p : Profile} (h : p.pace ≠ .proportional) (e mc : Nat) (up : Bool) :
    stepProduct p e mc up =
      if p.rushHi < mc then e / 2 else if mc < p.rushLo then 2 * e
      else if p.pace = .fine then (if up then e * 17 / 16 else e * 15 / 16)
      else if up then e * 5 / 4 else e * 3 / 4 := by
  unfold stepProduct
  cases hp : p.pace with
  | fine => rfl
  | coarse => rfl
  | proportional => exact absurd hp h

theorem stepProduct_proportional {p : Profile} (h : p.pace = .proportional) (e mc : Nat) (up : Bool) :
    stepProduct p e mc up = proportionalStep p e mc up := by
  unfold stepProduct
  rw [h]

/-! ## The clamped and damped aim (R53, R54) -/

theorem clampTo_eq {lo hi : Nat} (h : lo ≤ hi) (v : Nat) : clampTo lo hi v = max lo (min hi v) := by
  unfold clampTo
  split_ifs <;> omega

/-- The aim of PROPORTIONAL before its clamp. -/
def rawAim (p : Profile) (e mc : Nat) : Nat := e * ((p.innerLo + p.innerHi) / 2) / max mc 1

theorem aim_eq (p : Profile) (e mc : Nat) : aim p e mc = max (e / 4) (min (4 * e) (rawAim p e mc)) :=
  clampTo_eq (by omega) _

/-- Truncation toward zero of the signed difference is truncation toward the current value (R54). -/
theorem damped_eq_tdiv {p : Profile} (h : p.damp ≤ 16) (e a : Nat) :
    (damped p e a : Int) = e + (((a : Int) - e) * p.damp).tdiv 16 := by
  unfold damped
  split_ifs with hea
  · rw [← Int.ofNat_sub hea]
    push_cast
    rfl
  · have hle : (e - a) * p.damp / 16 ≤ e := by
      have : (e - a) * p.damp ≤ e * 16 := Nat.mul_le_mul (Nat.sub_le e a) h
      omega
    have hneg : (a : Int) - e = -((e - a : Nat) : Int) := by omega
    rw [hneg, Int.neg_mul, Int.neg_tdiv, Int.ofNat_sub hle]
    push_cast
    rfl

/-- The damped value stays between the current value and the aim. -/
theorem damped_up {p : Profile} (h : p.damp ≤ 16) {e a : Nat} (ha : e ≤ a) : e ≤ damped p e a ∧ damped p e a ≤ a := by
  have : (a - e) * p.damp ≤ (a - e) * 16 := Nat.mul_le_mul_left _ h
  rw [damped, if_pos ha]
  omega

theorem damped_down {p : Profile} (h : p.damp ≤ 16) {e a : Nat} (ha : a ≤ e) : a ≤ damped p e a ∧ damped p e a ≤ e := by
  have : (e - a) * p.damp ≤ (e - a) * 16 := Nat.mul_le_mul_left _ h
  rcases Nat.eq_or_lt_of_le ha with rfl | hlt
  · simp [damped]
  · rw [damped, if_neg (Nat.not_le.mpr hlt)]
    omega

/-! ## The target and the raw aim (R53) -/

section aim
variable {p : Profile} {e mc : Nat}

theorem target_in_band (h : p.innerLo < p.innerHi) :
    p.innerLo ≤ (p.innerLo + p.innerHi) / 2 ∧ (p.innerLo + p.innerHi) / 2 ≤ p.innerHi := by omega

/-- The raw aim of a dark mean is not below the product. -/
theorem le_rawAim (h : p.innerLo < p.innerHi) (hmc : mc < p.innerLo) : e ≤ rawAim p e mc := by
  have target : max mc 1 ≤ (p.innerLo + p.innerHi) / 2 := by omega
  exact (Nat.le_div_iff_mul_le (by omega)).mpr (Nat.mul_le_mul_left e target)

/-- The raw aim of a bright mean is below the product. -/
theorem rawAim_lt (h : p.innerLo < p.innerHi) (he : 0 < e) (hmc : p.innerHi < mc) : rawAim p e mc < e := by
  have target : (p.innerLo + p.innerHi) / 2 < max mc 1 := by omega
  exact (Nat.div_lt_iff_lt_mul (by omega)).mpr (Nat.mul_lt_mul_of_pos_left target he)

/-! ## A proportional step's bounds (R53 to R55) -/

theorem proportionalStep_up (h : p.innerLo < p.innerHi) (hd : p.damp ≤ 16) (he : 1 ≤ e) (hmc : mc < p.innerLo) :
    e < proportionalStep p e mc true ∧ proportionalStep p e mc true ≤ 4 * e := by
  have haim : e ≤ aim p e mc ∧ aim p e mc ≤ 4 * e := by
    have := le_rawAim (e := e) h hmc
    rw [aim_eq]
    omega
  have := damped_up hd haim.1
  simp only [proportionalStep, if_true]
  split_ifs <;> omega

theorem proportionalStep_down (h : p.innerLo < p.innerHi) (hd : p.damp ≤ 16) (he : 2 ≤ e) (hmc : p.innerHi < mc) :
    proportionalStep p e mc false < e ∧ e / 4 ≤ proportionalStep p e mc false := by
  have haim : e / 4 ≤ aim p e mc ∧ aim p e mc ≤ e := by
    have := rawAim_lt (e := e) h (by omega) hmc
    rw [aim_eq]
    omega
  have := damped_down hd haim.2
  simp only [proportionalStep, Bool.false_eq_true, if_false]
  split_ifs <;> omega

/-! ## A ratio step's bounds (R51, R52) -/

theorem ratioStep_up (hp : p.pace ≠ .proportional) (he : 16 ≤ e) (hhi : mc ≤ p.rushHi) :
    e < stepProduct p e mc true := by
  rw [stepProduct_ratio hp, if_neg (Nat.not_lt.mpr hhi)]
  simp only [if_true]
  split_ifs <;> omega

theorem ratioStep_down (hp : p.pace ≠ .proportional) (he : 16 ≤ e) (hlo : p.rushLo ≤ mc) :
    stepProduct p e mc false < e ∧ 1 ≤ stepProduct p e mc false := by
  rw [stepProduct_ratio hp, if_neg (Nat.not_lt.mpr hlo)]
  simp only [Bool.false_eq_true, if_false]
  split_ifs <;> omega

end aim

/-- The step of PROPORTIONAL on the integers, as the spec writes it (R53 to R55). -/
theorem stepProduct_signed {p : Profile} (h : p.pace = .proportional) (hd : p.damp ≤ 16) (e mc : Nat) (up : Bool) :
    let aim : Int := max (e / 4 : Nat) (min (4 * e : Nat) (rawAim p e mc))
    let damped : Int := e + ((aim - e) * p.damp).tdiv 16
    (stepProduct p e mc up : Int) = if damped = e then ((if up then e + 1 else e - 1 : Nat) : Int) else damped := by
  have haim : max ((e / 4 : Nat) : Int) (min (4 * e : Nat) (rawAim p e mc)) = (aim p e mc : Nat) := by
    rw [aim_eq, Nat.cast_max, Nat.cast_min]
  dsimp only
  rw [stepProduct_proportional h, haim, ← damped_eq_tdiv hd]
  unfold proportionalStep
  simp only [Nat.cast_inj]
  split_ifs <;> rfl

/-- Settles O50: the two forms of the step, and the bounds of the pace at hand under the relations of the profile. -/
theorem stepsMoveTheProduct : Obligations.StepsMoveTheProduct := by
  unfold Obligations.StepsMoveTheProduct
  refine ⟨fun p e mc up h => stepProduct_ratio h e mc up, fun p e mc up h hd => stepProduct_signed h hd e mc up,
    fun p e mc hc _ hd he => ?_⟩
  obtain ⟨hlo, hband, hhi, hrushLo, hrushHi, -, -, -, -⟩ := hc
  have up (hmc : mc < p.innerLo) :
      e < stepProduct p e mc true ∧ (p.pace = .proportional → stepProduct p e mc true ≤ 4 * e) := by
    by_cases hp : p.pace = .proportional
    · rw [stepProduct_proportional hp]
      obtain ⟨hgt, hle⟩ := proportionalStep_up (e := e) hband hd (by omega) hmc
      exact ⟨hgt, fun _ => hle⟩
    · exact ⟨ratioStep_up hp he (by omega), fun h => absurd h hp⟩
  have down (hmc : p.innerHi < mc) : stepProduct p e mc false < e ∧ 1 ≤ stepProduct p e mc false ∧
      (p.pace = .proportional → e / 4 ≤ stepProduct p e mc false) := by
    by_cases hp : p.pace = .proportional
    · rw [stepProduct_proportional hp]
      obtain ⟨hlt, hge⟩ := proportionalStep_down (e := e) hband hd (by omega) hmc
      exact ⟨hlt, by omega, fun _ => hge⟩
    · obtain ⟨hlt, hpos⟩ := ratioStep_down (mc := mc) hp he (by omega)
      exact ⟨hlt, hpos, fun h => absurd h hp⟩
  refine ⟨fun h => (up h).1, fun h => (down h).1, fun h => (down h).2.1, fun hp h => (up h).2 hp,
    fun hp h => (down h).2.2 hp, fun hp h => ?_, fun hp h => ?_, fun h => by omega, fun h => by omega,
    ⟨target_in_band hband, fun h => le_rawAim hband h, fun h => rawAim_lt hband (by omega) h⟩, fun _ => rfl, rfl⟩
  · rw [stepProduct_ratio hp, if_pos h]
  · rw [stepProduct_ratio hp, if_neg (by omega), if_pos h]

end Sys2Proof.Machine
end

section
/-! Exposure allocation (R62 to R67): clamping and quantization one value at a time, and the decomposition of a product,
whatever the order of its three steps. -/
namespace Sys2Proof.Machine

/-! ## Clamping (R63) -/

theorem clampTo_of_le {lo v : Nat} (h : v ≤ lo) (hi : Nat) (hlo : lo ≤ hi) : clampTo lo hi v = lo := by
  rw [clampTo_eq hlo]
  omega

theorem clampTo_of_ge {lo hi v : Nat} (hlo : lo ≤ hi) (h : hi ≤ v) : clampTo lo hi v = hi := by
  rw [clampTo_eq hlo]
  omega

theorem clampTo_mem {lo hi : Nat} (h : lo ≤ hi) (v : Nat) : lo ≤ clampTo lo hi v ∧ clampTo lo hi v ≤ hi := by
  rw [clampTo_eq h]
  omega

/-! ## Quantization (R64, R65) -/

/-- The value of a quantization before its third step, the floor. -/
def roundDown (lines quantum i : Nat) : Nat :=
  if i > lines then i / lines * lines else if quantum > 0 ∧ i ≥ quantum then i / quantum * quantum else i

theorem quantize_eq (lines quantum floor i : Nat) :
    quantize lines quantum floor i = max (roundDown lines quantum i) floor := rfl

section quantize
variable {lines quantum floor i j : Nat}

theorem roundDown_of_frames (h : lines < i) : roundDown lines quantum i = i / lines * lines := if_pos h

theorem roundDown_of_quantum (h : i ≤ lines) (hq : 0 < quantum) (hi : quantum ≤ i) :
    roundDown lines quantum i = i / quantum * quantum := by
  rw [roundDown, if_neg (Nat.not_lt.mpr h), if_pos ⟨hq, hi⟩]

theorem roundDown_of_small (h : i ≤ lines) (hq : quantum = 0 ∨ i < quantum) : roundDown lines quantum i = i := by
  rw [roundDown, if_neg (Nat.not_lt.mpr h), if_neg (by omega)]

/-- The three ranges of a value: above one frame, from QUANTUM up to one frame, and the rest. -/
theorem quantum_cases (lines quantum i : Nat) :
    lines < i ∨ i ≤ lines ∧ 0 < quantum ∧ quantum ≤ i ∨ i ≤ lines ∧ (quantum = 0 ∨ i < quantum) := by omega

theorem roundDown_le : roundDown lines quantum i ≤ i := by
  rcases quantum_cases lines quantum i with h | ⟨h, hq, hi⟩ | ⟨h, hq⟩
  · rw [roundDown_of_frames h]
    exact Nat.div_mul_le_self i lines
  · rw [roundDown_of_quantum h hq hi]
    exact Nat.div_mul_le_self i quantum
  · exact (roundDown_of_small h hq).le

/-- A positive step that fits in a value fits in the multiple of it below the value. -/
theorem le_div_mul {d n : Nat} (hd : 0 < d) (h : d ≤ n) : d ≤ n / d * d :=
  Nat.le_mul_of_pos_left d (Nat.div_pos h hd)

theorem roundDown_mono (hl : 1 ≤ lines) (h : i ≤ j) : roundDown lines quantum i ≤ roundDown lines quantum j := by
  rcases quantum_cases lines quantum j with hj | ⟨hj, hq, hqj⟩ | ⟨hj, hq⟩
  · rw [roundDown_of_frames hj]
    rcases Nat.lt_or_ge lines i with hi | hi
    · rw [roundDown_of_frames hi]
      exact Nat.mul_le_mul_right lines (Nat.div_le_div_right h)
    · calc roundDown lines quantum i ≤ i := roundDown_le
        _ ≤ lines := hi
        _ ≤ j / lines * lines := le_div_mul hl hj.le
  · rw [roundDown_of_quantum hj hq hqj]
    rcases Nat.lt_or_ge i quantum with hi | hi
    · calc roundDown lines quantum i ≤ i := roundDown_le
        _ ≤ quantum := hi.le
        _ ≤ j / quantum * quantum := le_div_mul hq hqj
    · rw [roundDown_of_quantum (h.trans hj) hq hi]
      exact Nat.mul_le_mul_right quantum (Nat.div_le_div_right h)
  · rw [roundDown_of_small hj hq]
    exact roundDown_le.trans h

/-- One frame exactly is kept where QUANTUM is not in use or divides it. -/
theorem roundDown_frame (h : quantum = 0 ∨ lines < quantum ∨ lines % quantum = 0) :
    roundDown lines quantum lines = lines := by
  rcases quantum_cases lines quantum lines with hl | ⟨hl, hq, hi⟩ | ⟨hl, hq⟩
  · exact absurd hl (Nat.lt_irrefl lines)
  · rw [roundDown_of_quantum hl hq hi]
    exact Nat.div_mul_cancel (Nat.dvd_of_mod_eq_zero (by omega))
  · exact roundDown_of_small hl hq

/-- A rounded value is kept, but for one frame reached from above under a QUANTUM that does not divide it (log entry 9). -/
theorem roundDown_roundDown (hl : 1 ≤ lines)
    (h : quantum = 0 ∨ lines < quantum ∨ lines % quantum = 0 ∨ i ≤ lines ∨ 2 * lines ≤ i) :
    roundDown lines quantum (roundDown lines quantum i) = roundDown lines quantum i := by
  rcases quantum_cases lines quantum i with hi | ⟨hi, hq, hqi⟩ | ⟨hi, hq⟩
  · rw [roundDown_of_frames hi]
    rcases Nat.lt_or_ge i (2 * lines) with h2 | h2
    · have one : i / lines = 1 := Nat.div_eq_of_lt_le (by omega) (by omega)
      rw [one, Nat.one_mul]
      exact roundDown_frame (by omega)
    · have two : 2 ≤ i / lines := (Nat.le_div_iff_mul_le hl).mpr h2
      have : 2 * lines ≤ i / lines * lines := Nat.mul_le_mul_right lines two
      rw [roundDown_of_frames (by omega), Nat.mul_div_cancel _ hl]
  · have multiple : i / quantum * quantum ≤ lines := (Nat.div_mul_le_self i quantum).trans hi
    rw [roundDown_of_quantum hi hq hqi, roundDown_of_quantum multiple hq (le_div_mul hq hqi), Nat.mul_div_cancel _ hq]
  · rw [roundDown_of_small hi hq, roundDown_of_small hi hq]

theorem quantize_mono (hl : 1 ≤ lines) (h : i ≤ j) : quantize lines quantum floor i ≤ quantize lines quantum floor j :=
  max_le_max_right floor (roundDown_mono hl h)

theorem floor_le_quantize : floor ≤ quantize lines quantum floor i := le_max_right _ _

theorem quantize_le (h : floor ≤ i) : quantize lines quantum floor i ≤ i := max_le roundDown_le h

theorem quantize_of_le (h : i ≤ floor) : quantize lines quantum floor i = floor := max_eq_right (roundDown_le.trans h)

theorem quantize_quantize (hl : 1 ≤ lines)
    (h : quantum = 0 ∨ lines < quantum ∨ lines % quantum = 0 ∨ i ≤ lines ∨ 2 * lines ≤ i) :
    quantize lines quantum floor (quantize lines quantum floor i) = quantize lines quantum floor i := by
  rcases le_total (roundDown lines quantum i) floor with hle | hle
  · rw [quantize_eq lines quantum floor i, max_eq_right hle, quantize_of_le le_rfl]
  · rw [quantize_eq lines quantum floor i, max_eq_left hle, quantize_eq, roundDown_roundDown hl h, max_eq_left hle]

end quantize

/-! ## One value of an actuator (R62, R63) -/

theorem intFloor_le_intCap (p : Profile) (lines : Nat) : (limitsOf p lines).intFloor ≤ (limitsOf p lines).intCap :=
  min_le_right _ _

theorem settleI_eq (p : Profile) (lines v : Nat) :
    settleI p lines v = quantize lines p.quantum (limitsOf p lines).intFloor
      (max (limitsOf p lines).intFloor (min v (limitsOf p lines).intCap)) := by
  rw [min_comm, ← clampTo_eq (intFloor_le_intCap p lines)]
  rfl

theorem settleG_eq {p : Profile} (h : 16 ≤ p.gainMax) (v : Nat) : settleG p v = max 16 (min v p.gainMax) := by
  rw [settleG, clampTo_eq h, min_comm]

theorem settleL_eq {p : Profile} (h : p.lvlMin ≤ p.lvlMax) (v : Nat) :
    settleL p v = max p.lvlMin (min v p.lvlMax) := by
  rw [settleL, clampTo_eq h, min_comm]

/-- Settles O48: the steps are the three ranges of a value, and a value is clamped before them. -/
theorem quantizationFollowsItsSteps : Obligations.QuantizationFollowsItsSteps := by
  unfold Obligations.QuantizationFollowsItsSteps
  refine ⟨settleI_eq, fun lines quantum floor cap hl _ => ⟨fun i h => ?_, fun i h hq hi => ?_, fun i h hq => ?_,
    fun i hlo hhi => ⟨floor_le_quantize, (quantize_le hlo).trans hhi⟩, fun i j h => quantize_mono hl h,
    fun i h => quantize_quantize hl h, fun hq hle => ?_, fun p v => ⟨fun h => settleG_eq h v, fun h => settleL_eq h v⟩⟩⟩
  · rw [quantize_eq, roundDown_of_frames h]
  · rw [quantize_eq, roundDown_of_quantum h hq hi]
  · rw [quantize_eq, roundDown_of_small h hq]
  · rw [quantize_eq, roundDown_of_quantum le_rfl hq hle]

/-- The greatest value of an actuator: its upper limit, quantized if it is integration (R62, R64). -/
def Actuator.greatest (p : Profile) (lines : Nat) : Actuator → Nat
  | .i => quantize lines p.quantum (limitsOf p lines).intFloor (limitsOf p lines).intCap
  | .g => p.gainMax
  | .l => p.lvlMax

/-- The limits of every actuator leave a value, and none is 0 (R62, R96, R97). -/
structure LimitsOpen (p : Profile) (lines : Nat) : Prop where
  frame : 1 ≤ lines
  floor : 1 ≤ (limitsOf p lines).intFloor
  gain : 16 ≤ p.gainMax
  levelPos : 1 ≤ p.lvlMin
  level : p.lvlMin ≤ p.lvlMax

section settle
variable {p : Profile} {lines : Nat} (h : LimitsOpen p lines)
include h

theorem Actuator.least_pos (a : Actuator) : 1 ≤ a.least p lines := by
  cases a with
  | i => exact h.floor
  | g => exact Nat.le_add_left 1 15
  | l => exact h.levelPos

theorem Actuator.settle_mem (a : Actuator) (v : Nat) :
    a.least p lines ≤ a.settle p lines v ∧ a.settle p lines v ≤ a.greatest p lines := by
  cases a with
  | i =>
    obtain ⟨-, hcap⟩ := clampTo_mem (intFloor_le_intCap p lines) v
    exact ⟨floor_le_quantize, quantize_mono h.frame hcap⟩
  | g => exact clampTo_mem h.gain v
  | l => exact clampTo_mem h.level v

/-- A value up to the least is settled to it. -/
theorem Actuator.settle_of_le {a : Actuator} {v : Nat} (hv : v ≤ a.least p lines) :
    a.settle p lines v = a.least p lines := by
  cases a with
  | i =>
    have clamped : clampTo _ _ v = (limitsOf p lines).intFloor := clampTo_of_le hv _ (intFloor_le_intCap p lines)
    exact quantize_of_le clamped.le
  | g => exact clampTo_of_le hv _ h.gain
  | l => exact clampTo_of_le hv _ h.level

/-- A value from the greatest up is settled to it, where quantization keeps the greatest integration (log entry 9). -/
theorem Actuator.settle_of_ge {a : Actuator} {v : Nat}
    (kept : quantize lines p.quantum (limitsOf p lines).intFloor (Actuator.i.greatest p lines) =
      Actuator.i.greatest p lines)
    (hv : a.greatest p lines ≤ v) : a.settle p lines v = a.greatest p lines := by
  cases a with
  | i =>
    refine le_antisymm (Actuator.settle_mem h .i v).2 ?_
    have top : Actuator.i.greatest p lines ≤ (limitsOf p lines).intCap := quantize_le (intFloor_le_intCap p lines)
    have clamped : Actuator.i.greatest p lines ≤ clampTo (limitsOf p lines).intFloor (limitsOf p lines).intCap v := by
      rw [clampTo_eq (intFloor_le_intCap p lines)]
      exact le_max_of_le_right (le_min top hv)
    calc Actuator.i.greatest p lines = quantize lines p.quantum _ (Actuator.i.greatest p lines) := kept.symm
      _ ≤ Actuator.i.settle p lines v := quantize_mono h.frame clamped
  | g => exact clampTo_of_ge h.gain hv
  | l => exact clampTo_of_ge h.level hv

theorem Actuator.least_le_greatest (a : Actuator) : a.least p lines ≤ a.greatest p lines :=
  (Actuator.settle_mem h a 0).1.trans (Actuator.settle_mem h a 0).2

end settle

/-! ## The three places of an order (R66) -/

/-- The value that settings give an actuator. -/
def Settings.value (v : Settings) : Actuator → Nat
  | .i => v.i
  | .g => v.g
  | .l => v.l

theorem Settings.eq_of_values {v : Settings} {n : Actuator → Nat} (h : ∀ x, v.value x = n x) :
    v = ⟨n .i, n .g, n .l⟩ :=
  Settings.mk.injEq .. ▸ ⟨h .i, h .g, h .l⟩

/-- An order names every actuator. -/
theorem Order.places_cover (o : Order) (x : Actuator) : x = o.places.1 ∨ x = o.places.2.1 ∨ x = o.places.2.2 := by
  cases o <;> cases x <;> decide

/-- The product of a number for each actuator does not depend on the order. -/
theorem Order.mul_places (o : Order) (n : Actuator → Nat) :
    n o.places.1 * n o.places.2.1 * n o.places.2.2 = n .i * n .g * n .l := by
  cases o <;> simp only [Order.places] <;> ring

/-- Settings are known by their values at the three places of an order. -/
theorem Order.settings_eq {o : Order} {v : Settings} {n : Actuator → Nat}
    (h : v.value o.places.1 = n o.places.1 ∧ v.value o.places.2.1 = n o.places.2.1 ∧
      v.value o.places.2.2 = n o.places.2.2) : v = ⟨n .i, n .g, n .l⟩ := by
  obtain ⟨h1, h2, h3⟩ := h
  refine Settings.eq_of_values fun x => ?_
  rcases o.places_cover x with rfl | rfl | rfl
  · exact h1
  · exact h2
  · exact h3

/-! ## The decomposition (R67) -/

/-- The three steps of R67 for the actuators of the three places: each takes what the product leaves once it is divided by
the values of the places before it and the least of those after it. -/
structure DecomposedBy (p : Profile) (lines product : Nat) (v : Settings) (a b c : Actuator) : Prop where
  first : v.value a = a.settle p lines (product / (b.least p lines * c.least p lines))
  second : v.value b = b.settle p lines (product / (v.value a * c.least p lines))
  third : v.value c = c.settle p lines (product / (v.value a * v.value b))

theorem decompose_steps (p : Profile) (lines product : Nat) :
    DecomposedBy p lines product (decompose p lines product) p.order.places.1 p.order.places.2.1 p.order.places.2.2 := by
  unfold decompose
  cases p.order <;> exact ⟨rfl, rfl, rfl⟩

/-- The decomposition of a product treats some three numbers, as values from the host are treated. -/
theorem decompose_eq_treat (p : Profile) (lines product : Nat) :
    ∃ i g l, decompose p lines product = treat p lines i g l := by
  unfold decompose
  cases p.order <;> exact ⟨_, _, _, rfl⟩

section bounds
variable {p : Profile} {lines product : Nat} {v : Settings} {a b c : Actuator}

variable (h : LimitsOpen p lines)
include h

/-- A product up to that of the least values leaves each place its least. -/
theorem DecomposedBy.of_le (d : DecomposedBy p lines product v a b c)
    (hp : product ≤ a.least p lines * b.least p lines * c.least p lines) :
    v.value a = a.least p lines ∧ v.value b = b.least p lines ∧ v.value c = c.least p lines := by
  have first : v.value a = a.least p lines := by
    rw [d.first, Actuator.settle_of_le h (Nat.div_le_of_le_mul (by linarith))]
  have second : v.value b = b.least p lines := by
    rw [d.second, first, Actuator.settle_of_le h (Nat.div_le_of_le_mul (by linarith))]
  refine ⟨first, second, ?_⟩
  rw [d.third, first, second, Actuator.settle_of_le h (Nat.div_le_of_le_mul hp)]

/-- A product from that of the greatest values up gives each place its greatest. -/
theorem DecomposedBy.of_ge (d : DecomposedBy p lines product v a b c)
    (kept : quantize lines p.quantum (limitsOf p lines).intFloor (Actuator.i.greatest p lines) =
      Actuator.i.greatest p lines)
    (hp : a.greatest p lines * b.greatest p lines * c.greatest p lines ≤ product) :
    v.value a = a.greatest p lines ∧ v.value b = b.greatest p lines ∧ v.value c = c.greatest p lines := by
  have pos := Actuator.least_pos h
  have range := Actuator.least_le_greatest h
  have posTop (x : Actuator) : 0 < x.greatest p lines := (pos x).trans (range x)
  have first : v.value a = a.greatest p lines := by
    rw [d.first]
    refine Actuator.settle_of_ge h kept ((Nat.le_div_iff_mul_le (Nat.mul_pos (pos b) (pos c))).mpr ?_)
    rw [← Nat.mul_assoc]
    exact (Nat.mul_le_mul (Nat.mul_le_mul_left _ (range b)) (range c)).trans hp
  have second : v.value b = b.greatest p lines := by
    rw [d.second, first]
    refine Actuator.settle_of_ge h kept ((Nat.le_div_iff_mul_le (Nat.mul_pos (posTop a) (pos c))).mpr ?_)
    rw [← Nat.mul_assoc, Nat.mul_comm (b.greatest p lines)]
    exact (Nat.mul_le_mul_left _ (range c)).trans hp
  refine ⟨first, second, ?_⟩
  rw [d.third, first, second]
  refine Actuator.settle_of_ge h kept ((Nat.le_div_iff_mul_le (Nat.mul_pos (posTop a) (posTop b))).mpr ?_)
  rwa [Nat.mul_comm]

/-- Every allocated value lies in its actuator's range. -/
theorem decompose_mem (product : Nat) (x : Actuator) :
    x.least p lines ≤ (decompose p lines product).value x ∧
      (decompose p lines product).value x ≤ x.greatest p lines := by
  obtain ⟨i, g, l, e⟩ := decompose_eq_treat p lines product
  rw [e]
  cases x with
  | i => exact Actuator.settle_mem h .i i
  | g => exact Actuator.settle_mem h .g g
  | l => exact Actuator.settle_mem h .l l

theorem decompose_of_le (hp : product ≤ (limitsOf p lines).intFloor * 16 * p.lvlMin) :
    decompose p lines product = ⟨(limitsOf p lines).intFloor, 16, p.lvlMin⟩ := by
  refine Order.settings_eq (n := Actuator.least p lines) ((decompose_steps p lines product).of_le h ?_)
  rwa [Order.mul_places]

theorem decompose_of_ge
    (kept : quantize lines p.quantum (limitsOf p lines).intFloor (Actuator.i.greatest p lines) =
      Actuator.i.greatest p lines)
    (hp : Actuator.i.greatest p lines * p.gainMax * p.lvlMax ≤ product) :
    decompose p lines product = ⟨Actuator.i.greatest p lines, p.gainMax, p.lvlMax⟩ := by
  refine Order.settings_eq (n := fun x => x.greatest p lines) ((decompose_steps p lines product).of_ge h kept ?_)
  rwa [Order.mul_places _ fun x => x.greatest p lines]

end bounds

theorem intFloor_pos {p : Profile} {lines : Nat} (h : ProfileInRange p) (hl : 1 ≤ lines) :
    1 ≤ (limitsOf p lines).intFloor := by
  obtain ⟨intMin, -, intMax, -⟩ := h.integration
  exact le_min intMin (le_min intMax (Nat.mul_pos hl (Nat.le_add_right 1 _)))

/-- A consistent profile in range leaves every actuator a value, none 0 (R62, R96, R97). -/
theorem limitsOpen_of {p : Profile} {lines : Nat} (hc : ConsistentProfile p) (hr : ProfileInRange p) (hl : 1 ≤ lines) :
    LimitsOpen p lines where
  frame := hl
  floor := intFloor_pos hr hl
  gain := hr.gain.1
  levelPos := hr.level.1
  level := hc.r7

/-- Settles O49: the steps of each order, and the bounds that each place keeps. -/
theorem decompositionKeepsItsBounds : Obligations.DecompositionKeepsItsBounds := by
  unfold Obligations.DecompositionKeepsItsBounds
  refine ⟨fun p lines product => ?_, fun p lines hc hr hl _ => ?_⟩
  · have steps := decompose_steps p lines product
    cases h : p.order <;> rw [h] at steps <;> exact ⟨steps.first, steps.second, steps.third⟩
  · have opened := limitsOpen_of hc hr (show 1 ≤ lines by omega)
    refine ⟨fun kept product hp => decompose_of_ge opened kept hp, fun product _ hp => decompose_of_le opened hp,
      fun product _ => ?_⟩
    obtain ⟨iLow, iHigh⟩ := decompose_mem opened product .i
    obtain ⟨gLow, gHigh⟩ := decompose_mem opened product .g
    obtain ⟨lLow, lHigh⟩ := decompose_mem opened product .l
    exact ⟨⟨iLow, iHigh⟩, ⟨gLow, gHigh⟩, ⟨lLow, lHigh⟩, Nat.mul_le_mul (Nat.mul_le_mul iLow gLow) lLow,
      Nat.mul_le_mul (Nat.mul_le_mul iHigh gHigh) lHigh⟩

end Sys2Proof.Machine
end

section
/-! The regulation stays in range (R61, R96): a treated or decomposed value lies in its actuator's range, an accepted item
in its field's, and merging keeps a profile in range. -/
namespace Sys2Proof.Machine

/-! ## Allocated values and the entry formed of them (R61, R62, R69) -/

theorem settleI_mem (p : Profile) (lines v : Nat) :
    (limitsOf p lines).intFloor ≤ settleI p lines v ∧ settleI p lines v ≤ (limitsOf p lines).intCap := by
  obtain ⟨hlo, hhi⟩ := clampTo_mem (intFloor_le_intCap p lines) v
  exact ⟨floor_le_quantize, (quantize_le hlo).trans hhi⟩

/-- A clamped value lies between any bounds on both ends of the range, also where the range is empty. -/
theorem clampTo_between {lo hi m n : Nat} (hlo : m ≤ lo ∧ lo ≤ n) (hhi : m ≤ hi ∧ hi ≤ n) (v : Nat) :
    m ≤ clampTo lo hi v ∧ clampTo lo hi v ≤ n := by
  unfold clampTo
  split_ifs <;> omega

theorem spanOf_mem {lines i n : Nat} (hl : 1 ≤ lines) (hi : 1 ≤ i) (hn : i ≤ lines * n) :
    1 ≤ spanOf lines i ∧ spanOf lines i ≤ n := by
  have below : i + lines - 1 < (n + 1) * lines := by
    rw [Nat.succ_mul, Nat.mul_comm n]
    omega
  exact ⟨(Nat.one_le_div_iff hl).mpr (by omega), Nat.lt_succ_iff.mp ((Nat.div_lt_iff_lt_mul hl).mpr below)⟩

/-- The entry of treated values is sound. -/
theorem entrySound_treat {p : Profile} {lines : Nat} (h : ProfileInRange p) (hl : 1 ≤ lines) (effective : Option Frame)
    (i g l : Nat) : EntrySound (entryOf lines effective (treat p lines i g l)) := by
  obtain ⟨-, -, -, intMax⟩ := h.integration
  obtain ⟨lvlMin, lvlMin', lvlMax, lvlMax'⟩ := h.level
  obtain ⟨gain, gain'⟩ := h.gain
  obtain ⟨-, extMax⟩ := h.frames
  obtain ⟨hfloor, hcap⟩ := settleI_mem p lines i
  have pos : 1 ≤ settleI p lines i := (intFloor_pos h hl).trans hfloor
  have frames : settleI p lines i ≤ lines * 8 := by
    calc settleI p lines i ≤ lines * (1 + p.extMax) := hcap.trans (min_le_right _ _)
      _ ≤ lines * 8 := Nat.mul_le_mul_left lines (by omega)
  exact {
    product := rfl
    i := ⟨pos, (hcap.trans (min_le_left _ _)).trans intMax⟩
    g := clampTo_between ⟨le_rfl, by omega⟩ ⟨gain, gain'⟩ g
    l := clampTo_between ⟨lvlMin, lvlMin'⟩ ⟨lvlMax, lvlMax'⟩ l
    span := spanOf_mem hl pos frames }

theorem entrySound_decompose {p : Profile} {lines : Nat} (h : ProfileInRange p) (hl : 1 ≤ lines)
    (effective : Option Frame) (product : Nat) : EntrySound (entryOf lines effective (decompose p lines product)) := by
  obtain ⟨i, g, l, e⟩ := decompose_eq_treat p lines product
  rw [e]
  exact entrySound_treat h hl effective i g l

/-! ## Items and merging (R96, R98, R103, R104) -/

/-- An item's value lies in its field's range. -/
def ItemInRange (it : Item) : Prop := it.1.range.1 ≤ it.2.toNat ∧ it.2.toNat ≤ it.1.range.2

/-- Every item that a set holds is in range. -/
def StagingSet.InRange (x : StagingSet) : Prop := ∀ it ∈ x.items, ItemInRange it

theorem Field.range_lt (f : Field) : f.range.2 < 2 ^ 32 := by
  cases f with
  | weightRow row =>
    show 2 ^ 32 - 1 < 2 ^ 32
    norm_num
  | _ => decide

theorem recordItem_inRange {r : Block64} {j : Nat} {it : Item} (h : recordItem r j = some it) : ItemInRange it := by
  unfold recordItem at h
  split at h
  · cases h
  · next f _ =>
    dsimp only at h
    split at h
    · next hv =>
      cases h
      obtain ⟨hlo, hhi⟩ : f.range.1 ≤ content r (0x14 + 8 * j) 4 ∧ content r (0x14 + 8 * j) 4 ≤ f.range.2 := by
        simpa [Field.accepts] using hv
      have value : (BitVec.ofNat 32 (content r (0x14 + 8 * j) 4)).toNat = content r (0x14 + 8 * j) 4 :=
        (BitVec.toNat_ofNat ..).trans (Nat.mod_eq_of_lt (hhi.trans_lt f.range_lt))
      unfold ItemInRange
      dsimp only
      rw [value]
      exact ⟨hlo, hhi⟩
    · cases h

theorem recordItems_inRange {r : Block64} {n j : Nat} {items : List Item} (h : recordItems r n j = some items) :
    ∀ it ∈ items, ItemInRange it := by
  induction n generalizing j items with
  | zero =>
    cases h
    exact fun _ hit => absurd hit List.not_mem_nil
  | succ n ih =>
    unfold recordItems at h
    split at h
    · next it rest hit hrest =>
      cases h
      exact List.forall_mem_cons.mpr ⟨recordItem_inRange hit, ih hrest⟩
    · cases h

theorem putItem_subset (it : Item) (held : List Item) : putItem it held ⊆ it :: held := by
  induction held with
  | nil => exact fun _ h => h
  | cons x rest ih =>
    unfold putItem
    split
    · exact List.cons_subset_cons it (List.subset_cons_self x rest)
    · refine List.cons_subset.mpr ⟨by simp, fun y hy => ?_⟩
      rcases List.mem_cons.mp (ih hy) with rfl | hy
      · exact List.mem_cons_self
      · exact List.mem_cons_of_mem _ (List.mem_cons_of_mem _ hy)

theorem putItems_inRange {items held : List Item} (hi : ∀ it ∈ items, ItemInRange it)
    (hh : ∀ it ∈ held, ItemInRange it) : ∀ it ∈ putItems items held, ItemInRange it := by
  unfold putItems
  induction items generalizing held with
  | nil => exact hh
  | cons x rest ih =>
    obtain ⟨hx, hrest⟩ := List.forall_mem_cons.mp hi
    exact ih hrest fun it hit => List.forall_mem_cons.mpr ⟨hx, hh⟩ it (putItem_subset x held hit)

theorem profileInRange_defaults : ProfileInRange Profile.defaults := by
  constructor <;> decide

/-- Replacing one value by an accepted one keeps a profile in range (R96, R98). -/
theorem profileInRange_replace {p : Profile} (h : ProfileInRange p) {it : Item} (hit : ItemInRange it) :
    ProfileInRange (p.replace it) := by
  obtain ⟨f, v⟩ := it
  obtain ⟨hlo, hhi⟩ := hit
  obtain ⟨innerLo, innerHi, outerLo, outerHi, rushLo, rushHi⟩ := h.bands
  obtain ⟨intMin, intMin', intMax, intMax'⟩ := h.integration
  obtain ⟨lvlMin, lvlMin', lvlMax, lvlMax'⟩ := h.level
  obtain ⟨quantum, extMax⟩ := h.frames
  obtain ⟨colLo, colHi, rowLo, rowHi⟩ := h.window
  obtain ⟨clipLimit, clipLimit', clipCellsMax⟩ := h.clip
  cases f with
  | innerLo => exact { h with bands := ⟨hhi, innerHi, outerLo, outerHi, rushLo, rushHi⟩ }
  | innerHi => exact { h with bands := ⟨innerLo, hhi, outerLo, outerHi, rushLo, rushHi⟩ }
  | outerLo => exact { h with bands := ⟨innerLo, innerHi, hhi, outerHi, rushLo, rushHi⟩ }
  | outerHi => exact { h with bands := ⟨innerLo, innerHi, outerLo, hhi, rushLo, rushHi⟩ }
  | rushLo => exact { h with bands := ⟨innerLo, innerHi, outerLo, outerHi, hhi, rushHi⟩ }
  | rushHi => exact { h with bands := ⟨innerLo, innerHi, outerLo, outerHi, rushLo, hhi⟩ }
  | damp => exact { h with damp := ⟨hlo, hhi⟩ }
  | intMin => exact { h with integration := ⟨hlo, hhi, intMax, intMax'⟩ }
  | intMax => exact { h with integration := ⟨intMin, intMin', hlo, hhi⟩ }
  | gainMax => exact { h with gain := ⟨hlo, hhi⟩ }
  | lvlMin => exact { h with level := ⟨hlo, hhi, lvlMax, lvlMax'⟩ }
  | lvlMax => exact { h with level := ⟨lvlMin, lvlMin', hlo, hhi⟩ }
  | quantum => exact { h with frames := ⟨hhi, extMax⟩ }
  | extMax => exact { h with frames := ⟨quantum, hhi⟩ }
  | colLo => exact { h with window := ⟨hhi, colHi, rowLo, rowHi⟩ }
  | colHi => exact { h with window := ⟨colLo, hhi, rowLo, rowHi⟩ }
  | rowLo => exact { h with window := ⟨colLo, colHi, hhi, rowHi⟩ }
  | rowHi => exact { h with window := ⟨colLo, colHi, rowLo, hhi⟩ }
  | clipLimit => exact { h with clip := ⟨hlo, hhi, clipCellsMax⟩ }
  | clipCellsMax => exact { h with clip := ⟨clipLimit, clipLimit', hhi⟩ }
  | gapLimit => exact { h with gap := ⟨hlo, hhi⟩ }
  | pace | order | weightRow | gapPolicy | inflight | noticeMask => exact { h with }

theorem profileInRange_merge {p : Profile} (h : ProfileInRange p) {items : List Item}
    (hi : ∀ it ∈ items, ItemInRange it) : ProfileInRange (p.merge items) := by
  unfold Profile.merge
  induction items generalizing p with
  | nil => exact h
  | cons x rest ih =>
    obtain ⟨hx, hrest⟩ := List.forall_mem_cons.mp hi
    exact ih (profileInRange_replace h hx) hrest

end Sys2Proof.Machine
end

section
/-! A station that regulates within its ranges goes on doing so through an evaluation (R61, R96). -/
namespace Sys2Proof.Machine

/-- What the regulation of a station rests on lies in range (R61, R96). -/
structure Station.Regulates (c : Station) : Prop where
  lines : 16 ≤ c.frameLines ∧ c.frameLines ≤ 65535
  delay : 1 ≤ c.applyDelay ∧ c.applyDelay ≤ 4
  profile : ProfileInRange c.profile
  entry : ∀ e ∈ c.history, EntrySound e

/-- An event that leaves frame lines, delay and profile of a station and adds no entry to its history. -/
structure Station.Continues (c d : Station) : Prop where
  lines : d.frameLines = c.frameLines
  delay : d.applyDelay = c.applyDelay
  profile : d.profile = c.profile
  history : d.history.Sublist c.history

theorem Station.Continues.refl (c : Station) : c.Continues c := ⟨rfl, rfl, rfl, .refl _⟩

theorem Station.Continues.trans {c d e : Station} (h : c.Continues d) (h' : d.Continues e) : c.Continues e :=
  ⟨h'.lines.trans h.lines, h'.delay.trans h.delay, h'.profile.trans h.profile, h'.history.trans h.history⟩

theorem Station.Regulates.continued {c d : Station} (h : c.Regulates) (hd : c.Continues d) : d.Regulates where
  lines := hd.lines ▸ h.lines
  delay := hd.delay ▸ h.delay
  profile := hd.profile ▸ h.profile
  entry e he := h.entry e (hd.history.subset he)

/-! ## The parts of an evaluation that continue the regulation -/

section continues
variable (c : Station) (f : Frame)

theorem Station.continues_raise (k : Condition) : c.Continues (c.raise k) := ⟨rfl, rfl, rfl, .refl _⟩

theorem Station.continues_raiseAll (ks : List Condition) : c.Continues (c.raiseAll ks) := by
  induction ks generalizing c with
  | nil => exact .refl c
  | cons k rest ih => exact (c.continues_raise k).trans (ih (c.raise k))

theorem Station.continues_record (mean comp : Option Nat) (clip : Nat) : c.Continues (c.record f mean comp clip) :=
  ⟨rfl, rfl, rfl, .refl _⟩

theorem trimOlder_sublist (older : List Entry) (newest : Entry) : (trimOlder f older newest).Sublist older := by
  induction older with
  | nil => exact .refl _
  | cons e rest ih =>
    unfold trimOlder
    split
    · exact ih.cons e
    · exact .refl _

theorem Station.continues_trim : c.Continues (c.trim f) :=
  ⟨rfl, rfl, rfl, (trimOlder_sublist f c.older c.newest).append_right [c.newest]⟩

theorem Station.continues_cut : c.Continues c.cut := ⟨rfl, rfl, rfl, List.sublist_append_right c.older [c.newest]⟩

theorem continues_gapStage : c.Continues (gapStage f c).station := by
  have cut : ∀ loop, c.Continues { c.cut with loop := loop } := fun _ => c.continues_cut.trans ⟨rfl, rfl, rfl, .refl _⟩
  unfold gapStage
  split
  · exact .refl c
  · split
    · exact .refl c
    · split
      · exact c.continues_cut
      · exact c.continues_cut
      all_goals exact cut _

theorem continues_enter (exit : LoopState) : c.Continues (enter exit c) := by
  have entered : c.Continues { c with loop := exit } := ⟨rfl, rfl, rfl, .refl _⟩
  unfold enter
  split
  · exact .refl c
  · exact entered.trans (Station.continues_raiseAll _ _)

end continues

/-! ## The loop (R56, R72, R80, R81) -/

section loop
variable {c : Station} (h : c.Regulates) (f : Frame)
include h

theorem Station.Regulates.push (x : Frame) {e : Entry} (he : EntrySound e) : (c.push x e).Regulates := by
  have entry {older : List Entry} (ho : older ⊆ c.history) : ∀ y ∈ older ++ [e], EntrySound y := by
    intro y hy
    rcases List.mem_append.mp hy with hy | hy
    · exact h.entry y (ho hy)
    · exact List.mem_singleton.mp hy ▸ he
  unfold Station.push
  split
  · exact ⟨h.lines, h.delay, h.profile, entry fun _ hy => hy⟩
  · exact ⟨h.lines, h.delay, h.profile, entry (List.filter_subset_self c.history)⟩

theorem Station.Regulates.moveTo (product : Nat) : (moveTo f product c).station.Regulates := by
  have lines : 1 ≤ c.frameLines := Nat.le_trans (by decide) h.lines.1
  unfold Machine.moveTo
  dsimp only
  split
  · exact h
  · exact h.push _ (entrySound_decompose h.profile lines _ product)

theorem Station.Regulates.loopStage (veto : Bool) (mc : Nat) : (loopStage f veto mc c).station.Regulates := by
  unfold Machine.loopStage
  split
  · exact h.continued (continues_enter c _)
  · exact ((h.moveTo f _).continued (continues_enter _ _)).continued (Station.continues_raise _ _)
  · exact (h.moveTo f _).continued (continues_enter _ _)
  · exact (h.moveTo f _).continued (continues_enter _ _)

theorem Station.Regulates.evaluateLoop (m : Metered) (mean mc : Nat) (sets : Vector StagingSet 8) :
    (evaluateLoop f m mean mc c sets).station.Regulates := by
  unfold Machine.evaluateLoop
  split
  · exact h.continued (Station.continues_record ..)
  · have recorded := (h.loopStage f m.veto mc).continued (Station.continues_record _ f (some mean) (some mc) m.clip)
    dsimp only
    split
    · exact recorded.continued ⟨rfl, rfl, rfl, .refl _⟩
    · exact recorded

theorem Station.Regulates.evaluateGrid (g : GridSource) (sets : Vector StagingSet 8) :
    (evaluateGrid f g c sets).station.Regulates := by
  have trimmed := h.continued (c.continues_trim f)
  unfold Machine.evaluateGrid
  dsimp only
  split
  · exact h.continued (Station.continues_record ..)
  · split
    · exact trimmed.continued ⟨rfl, rfl, rfl, .refl _⟩
    · exact trimmed.evaluateLoop f _ _ _ sets

/-! ## Armed application (R110 to R113) -/

theorem Station.Regulates.landItems {items : List Item} (hi : ∀ it ∈ items, ItemInRange it) :
    (landItems items c).Regulates := by
  have merged : ({ c with profile := c.profile.merge items } : Station).Regulates :=
    ⟨h.lines, h.delay, profileInRange_merge h.profile hi, h.entry⟩
  unfold Machine.landItems
  dsimp only
  split
  · exact merged.continued (Station.continues_raise _ _)
  · exact h.continued (Station.continues_raise _ _)

end loop

/-- An event that puts no item into a set. -/
def ItemsKept (sets after : Vector StagingSet 8) : Prop := ∀ i : SetId, (after[i]).items.Sublist (sets[i]).items

theorem ItemsKept.refl (sets : Vector StagingSet 8) : ItemsKept sets sets := fun _ => .refl _

theorem ItemsKept.trans {a b c : Vector StagingSet 8} (h : ItemsKept a b) (h' : ItemsKept b c) : ItemsKept a c :=
  fun i => (h' i).trans (h i)

theorem ItemsKept.set {sets : Vector StagingSet 8} (i : SetId) {x : StagingSet}
    (h : x.items.Sublist (sets[i]).items) : ItemsKept sets (sets.set i x) := by
  intro j
  rw [get_set]
  split
  · next hij => exact hij ▸ h
  · exact .refl _

theorem ItemsKept.set_free (sets : Vector StagingSet 8) (i : SetId) : ItemsKept sets (sets.set i .free) :=
  .set i (List.nil_sublist _)

theorem ItemsKept.freeSets (ids : List SetId) (sets : Vector StagingSet 8) : ItemsKept sets (freeSets ids sets) := by
  intro i
  rw [get_freeSets]
  split
  · exact List.nil_sublist _
  · exact .refl _

theorem ItemsKept.inRange {sets after : Vector StagingSet 8} (h : ItemsKept sets after)
    (hs : ∀ i : SetId, (sets[i]).InRange) (i : SetId) : (after[i]).InRange :=
  fun it hit => hs i it ((h i).subset hit)

theorem applySets_items (f : Frame) (ids : List SetId) (c : Station) (sets : Vector StagingSet 8) :
    ItemsKept sets (applySets f ids c sets).2 := by
  induction ids generalizing c sets with
  | nil => exact .refl _
  | cons id rest ih =>
    unfold applySets
    split
    · split
      · exact ih c sets
      · exact (ItemsKept.set_free sets id).trans (ih _ _)
    · exact ih c sets
    · exact ih c sets

theorem Station.Regulates.applySets (f : Frame) (ids : List SetId) {c : Station} (h : c.Regulates)
    {sets : Vector StagingSet 8} (hs : ∀ i : SetId, (sets[i]).InRange) : (applySets f ids c sets).1.Regulates := by
  induction ids generalizing c sets with
  | nil => exact h
  | cons id rest ih =>
    unfold Machine.applySets
    split
    · next items station frame e =>
      split
      · exact ih h hs
      · have inRange : ∀ it ∈ items, ItemInRange it := by simpa [StagingSet.InRange, e, StagingSet.items] using hs id
        have landed : ({ Machine.landItems items c with armed := c.armed.erase id } : Station).Regulates :=
          (h.landItems inRange).continued ⟨rfl, rfl, rfl, .refl _⟩
        exact ih landed ((ItemsKept.set_free sets id).inRange hs)
    · exact ih h hs
    · exact ih h hs

theorem Station.Regulates.evaluate (f : Frame) (g : GridSource) {c : Station} (h : c.Regulates)
    {sets : Vector StagingSet 8} (hs : ∀ i : SetId, (sets[i]).InRange) : (evaluate f g c sets).station.Regulates := by
  have landed := (h.continued (continues_gapStage c f)).applySets f (gapStage f c).station.armed hs
  unfold Machine.evaluate
  split
  · exact h.continued ⟨rfl, rfl, rfl, .refl _⟩
  · split
    · exact h.continued (Station.continues_raise _ _)
    · exact (landed.continued (Station.continues_raiseAll _ _)).evaluateGrid f g _

theorem evaluateLoop_sets (f : Frame) (m : Metered) (mean mc : Nat) (c : Station) (sets : Vector StagingSet 8) :
    (evaluateLoop f m mean mc c sets).sets = sets := by
  unfold evaluateLoop
  split <;> rfl

theorem evaluateGrid_sets (f : Frame) (g : GridSource) (c : Station) (sets : Vector StagingSet 8) :
    (evaluateGrid f g c sets).sets = sets := by
  unfold evaluateGrid
  dsimp only
  split
  · rfl
  · split
    · rfl
    · exact evaluateLoop_sets ..

theorem evaluate_items (f : Frame) (g : GridSource) (c : Station) (sets : Vector StagingSet 8) :
    ItemsKept sets (evaluate f g c sets).sets := by
  unfold evaluate
  split
  · exact .refl _
  · split
    · exact .refl _
    · dsimp only
      rw [evaluateGrid_sets]
      exact applySets_items f _ _ sets

end Sys2Proof.Machine
end

section
/-! The events that leave every station's regulation and put no item into a set: all but OPEN_STATION, MEASURE,
SET_ACTUATORS, STAGE_PUT and STAGE_COMMIT. -/
namespace Sys2Proof.Machine

/-- A context after an event: a station that it holds continues one held before. -/
def Context.Continues (x y : Context) : Prop := ∀ d, y.station = some d → ∃ c, x.station = some c ∧ c.Continues d

theorem Context.Continues.refl (x : Context) : x.Continues x := fun d hd => ⟨d, hd, .refl d⟩

theorem Context.Continues.trans {x y z : Context} (h : x.Continues y) (h' : y.Continues z) : x.Continues z := by
  intro e he
  obtain ⟨d, hd, hde⟩ := h' e he
  obtain ⟨c, hc, hcd⟩ := h d hd
  exact ⟨c, hc, hcd.trans hde⟩

theorem Context.continues_free (x : Context) : x.Continues .free := by
  intro d hd
  cases hd

theorem Context.continues_opened {c d : Station} (h : c.Continues d) : (Context.opened c).Continues (.opened d) := by
  intro e he
  cases he
  exact ⟨c, rfl, h⟩

theorem Context.continues_closing {c d : Station} (h : c.Continues d) : (Context.opened c).Continues (.closing d) := by
  intro e he
  cases he
  exact ⟨c, rfl, h⟩

theorem Context.continues_update (x : Context) {f : Station → Station} (h : ∀ c : Station, c.Continues (f c)) :
    x.Continues (x.update f) := by
  intro e he
  cases x with
  | free => cases he
  | opened c => cases he; exact ⟨c, rfl, h c⟩
  | closing c => cases he; exact ⟨c, rfl, h c⟩

/-- An event after which every station continues one that stood there before, and every set holds no further item. -/
structure KeepsRegulation (s t : State) : Prop where
  stations : ∀ id : StationId, (s.stations[id]).Continues t.stations[id]
  items : ItemsKept s.sets t.sets

namespace KeepsRegulation
variable {s t u : State}

theorem of_banks (stations : t.stations = s.stations) (sets : t.sets = s.sets) : KeepsRegulation s t where
  stations _ := stations ▸ .refl _
  items := sets ▸ .refl _

theorem refl (s : State) : KeepsRegulation s s := .of_banks rfl rfl

theorem trans (h : KeepsRegulation s t) (h' : KeepsRegulation t u) : KeepsRegulation s u where
  stations id := (h.stations id).trans (h'.stations id)
  items := h.items.trans h'.items

theorem foldl {α : Type} {f : State → α → State} (h : ∀ s a, KeepsRegulation s (f s a)) (l : List α) (s : State) :
    KeepsRegulation s (l.foldl f s) := by
  induction l generalizing s with
  | nil => exact .refl s
  | cons a rest ih => exact (h s a).trans (ih _)

/-- One context is written. -/
theorem of_set {id : StationId} {x : Context} (stations : t.stations = s.stations.set id x)
    (hx : (s.stations[id]).Continues x) (items : ItemsKept s.sets t.sets) : KeepsRegulation s t where
  stations j := by
    rw [stations, get_set]
    split
    · next h => exact h ▸ hx
    · exact .refl _
  items := items

/-! ## The shared operations -/

theorem executing {k : SlotId} {kind : Nat} {act : Task → Block64 → State}
    (h : ∀ t r, KeepsRegulation s (act t r)) : KeepsRegulation s (s.executing k kind act) := by
  rcases s.executing_cases k kind act with e | ⟨t, r, -, e⟩
  · rw [e]
    exact .refl s
  · rw [e]
    exact h t r

theorem reached {act : State → State} (h : KeepsRegulation s (act s)) : KeepsRegulation s (s.reached act) := by
  unfold State.reached
  split
  · exact h
  · exact .refl s

theorem endDone {kind : TransferKind} {e : Nat} (h : s.endDone kind e = some t) : KeepsRegulation s t := by
  obtain ⟨x, -, -, m, rfl, -⟩ := State.endDone_eq_some h
  exact .of_banks rfl rfl

theorem endFailed {kind : TransferKind} {e : Nat} (h : s.endFailed kind e = some t) : KeepsRegulation s t := by
  obtain ⟨x, -, m, d, rfl, -⟩ := State.endFailed_eq_some h
  exact .of_banks rfl rfl

variable (s)

theorem announce (n : ResultRingId) (due : ResultRing → Bool) : KeepsRegulation s (s.announce n due) := by
  unfold State.announce
  split
  · exact .refl s
  · split
    · exact .of_banks rfl rfl
    · exact .refl s

theorem announceAll : KeepsRegulation s s.announceAll := foldl (fun s n => announce s n _) _ s

theorem recordProduced (n : ResultRingId) : KeepsRegulation s (s.recordProduced n) := by
  cases h : s.resultRings[n] with
  | none =>
    rw [State.recordProduced_absent h]
    exact .refl s
  | some q =>
    rw [State.recordProduced_spec h]
    exact .of_banks rfl rfl

theorem emitNotice (id : StationId) : KeepsRegulation s (s.emitNotice id) := by
  rcases s.emitNotice_cases id with ⟨e, -⟩ | ⟨c, q, hc, -, -, -, -, e⟩
  · rw [e]
    exact .refl s
  · rw [e]
    exact .of_set rfl (hc ▸ Context.continues_opened ⟨rfl, rfl, rfl, .refl _⟩) (.refl _)

theorem offerSlots (n : ResultRingId) : KeepsRegulation s (s.offerSlots n) := by
  refine foldl (fun s id => ?_) _ s
  split
  · exact emitNotice s id
  · exact .refl s

theorem resume : KeepsRegulation s s.resume :=
  .trans (t := { s with controller := .running }) (.of_banks rfl rfl) (foldl offerSlots _ _)

theorem endCloseDrain (k : SlotId) : KeepsRegulation s (s.endCloseDrain k) := by
  rcases s.endCloseDrain_cases k with e | ⟨t, r, id, c, -, -, -, -, e⟩
  · rw [e]
    exact .refl s
  · rw [e]
    exact .of_set rfl (Context.continues_free _) (.freeSets c.armed s.sets)

theorem endDeleteDrain (k : SlotId) : KeepsRegulation s (s.endDeleteDrain k) := by
  rcases s.endDeleteDrain_cases k with e | ⟨t, r, n, w, -, -, -, -, e⟩
  · rw [e]
    exact .refl s
  · rw [e]
    refine ⟨fun _ => .refl _, fun i => ?_⟩
    rw [get_mapBank]
    split
    · exact List.nil_sublist _
    · exact .refl _

theorem settleDrains : KeepsRegulation s s.settleDrains :=
  foldl (fun s k => (endCloseDrain s k).trans (endDeleteDrain _ k)) _ s

theorem freeSlot (k : SlotId) : KeepsRegulation s (s.freeSlot k) := by
  unfold State.freeSlot
  split
  · exact .refl s
  · dsimp only
    split <;> exact .of_banks rfl rfl

theorem afterLastTask : KeepsRegulation s s.afterLastTask := by
  unfold State.afterLastTask
  split
  · dsimp only
    split
    · exact (announceAll s).trans (.of_banks rfl rfl)
    · exact announceAll s
  · exact .refl s

theorem noticeWritten (id : StationId) (n : ResultRingId) : KeepsRegulation s (s.noticeWritten id n) := by
  have marked : KeepsRegulation s
      (s.setStation id (s.stations[id].update fun c => { c with noticeInFlight := s.noticePending id })) :=
    .of_set rfl (Context.continues_update _ fun _ => ⟨rfl, rfl, rfl, .refl _⟩) (.refl _)
  unfold State.noticeWritten
  dsimp only
  split
  · exact marked.trans (announce _ n _)
  · exact marked

theorem advanceWritten (n : WorkRingId) : KeepsRegulation s (s.advanceWritten n) := by
  unfold State.advanceWritten
  split <;> exact .of_banks rfl rfl

theorem holdRecord (k : SlotId) (t : Task) (r : Block64) : KeepsRegulation s (s.holdRecord k t r) := by
  unfold State.holdRecord
  split <;> exact .of_banks rfl rfl

/-! ## Halt, resets and the register window -/

theorem halt (why : HaltCause) : KeepsRegulation s (s.halt why) := by
  by_cases h : Halts s
  · obtain ⟨m, d, e, -⟩ := State.halt_spec h why
    rw [e]
    exact .of_banks rfl rfl
  · rw [State.halt_of_not h]
    exact .refl s

theorem teardown : KeepsRegulation s s.teardown := by
  obtain ⟨m, d, e, -⟩ := s.teardown_spec
  rw [e]
  refine ⟨fun id => ?_, fun i => ?_⟩
  · rw [show (tornDown s m d).stations[id] = .free by simp [tornDown]]
    exact Context.continues_free _
  · rw [show (tornDown s m d).sets[i] = .free by simp [tornDown]]
    exact List.nil_sublist _

theorem beginStartUp : KeepsRegulation s s.beginStartUp := by
  have started : KeepsRegulation s { s with controller := .starting, haltCause := .none } := .of_banks rfl rfl
  unfold State.beginStartUp
  dsimp only
  split
  · exact .of_banks rfl rfl
  · exact started.trans (halt _ _)

theorem beginQuiesce : KeepsRegulation s s.beginQuiesce := by
  unfold State.beginQuiesce
  split <;> exact .of_banks rfl rfl

theorem enabledWrite (before : Bool) : KeepsRegulation s (s.enabledWrite before) := by
  unfold State.enabledWrite
  split
  · exact beginStartUp s
  · split
    · exact beginQuiesce s
    · exact .refl s
  · split
    · exact resume s
    · exact .refl s
  · split
    · exact resume s
    · exact .refl s
  · exact .refl s
  · exact .refl s

theorem writeCtrl (value : Register) : KeepsRegulation s (s.writeCtrl value) := by
  have stored : KeepsRegulation s { s with quiesceBit := ctrlQuiesce value } := .of_banks rfl rfl
  unfold State.writeCtrl
  split
  · exact (teardown s).trans (.of_banks rfl rfl)
  · dsimp only
    split
    · exact stored.trans (enabledWrite _ _)
    · split
      · exact stored
      · exact stored.trans (teardown _)

theorem postWork (value : Register) : KeepsRegulation s (s.postWork value) := by
  unfold State.postWork
  split
  · exact .of_banks rfl rfl
  · split
    · exact .of_banks rfl rfl
    · split <;> exact .of_banks rfl rfl

theorem releaseResult (value : Register) : KeepsRegulation s (s.releaseResult value) := by
  unfold State.releaseResult
  split
  · exact .of_banks rfl rfl
  · split
    · exact .of_banks rfl rfl
    · split
      · exact .of_banks rfl rfl
      · split
        · exact .refl s
        · exact .trans (t := s.setResultRing _ _) (.of_banks rfl rfl) (offerSlots _ _)

theorem writePost (value : Register) : KeepsRegulation s (s.writePost value) := by
  unfold State.writePost
  split
  · exact postWork s value
  · split
    · exact releaseResult s value
    · exact .of_banks rfl rfl

theorem writeRegister (offset : BitVec 12) (value : Register) : KeepsRegulation s (s.writeRegister offset value) := by
  unfold State.writeRegister
  split
  · exact writeCtrl s value
  · exact .of_banks rfl rfl
  · exact .of_banks rfl rfl
  · exact writePost s value
  · exact .of_banks rfl rfl
  · exact .of_banks rfl rfl
  · exact .refl s

/-! ## Takes, result writes and the ends of transfers -/

theorem take : Leaves (execTake s) (KeepsRegulation s) := by
  unfold execTake
  refine leaves_next ?_
  split
  · split
    · exact .refl s
    · split
      · exact .refl s
      · exact .of_banks rfl rfl
  · exact .refl s

theorem recordReadDone (k : SlotId) (r : Block64) (e : Nat) :
    Leaves (execRecordReadDone k r s e) (KeepsRegulation s) := by
  unfold execRecordReadDone
  refine leaves_next ?_
  split
  · exact .refl s
  · split
    · split
      · exact .refl s
      · next hs => exact ((endDone hs).trans (holdRecord _ k _ r)).trans (advanceWritten _ _)
    all_goals exact .refl s

theorem recordReadFault (k : SlotId) (e : Nat) : Leaves (execRecordReadFault k s e) (KeepsRegulation s) := by
  unfold execRecordReadFault
  refine leaves_next ?_
  split
  · exact .refl s
  · split
    · split
      · exact .refl s
      · next hs =>
        refine .trans ?_ (advanceWritten _ _)
        split <;> exact (endFailed hs).trans (.of_banks rfl rfl)
    all_goals exact .refl s

theorem gridReadDone (k : SlotId) (data : List Byte) (e : Nat) :
    Leaves (execGridReadDone k data s e) (KeepsRegulation s) := by
  unfold execGridReadDone
  refine leaves_next ?_
  split
  · exact .refl s
  · split
    · split
      · exact .refl s
      · next hs =>
        split
        · exact (endDone hs).trans (.of_banks rfl rfl)
        · exact .refl s
    all_goals exact .refl s

theorem gridReadFault (k : SlotId) (e : Nat) : Leaves (execGridReadFault k s e) (KeepsRegulation s) := by
  unfold execGridReadFault
  refine leaves_next ?_
  split
  · exact .refl s
  · split
    · split
      · exact .refl s
      · next hs => exact (endFailed hs).trans (.of_banks rfl rfl)
    all_goals exact .refl s

theorem snapshotWriteDone (k : SlotId) (e : Nat) : Leaves (execSnapshotWriteDone k s e) (KeepsRegulation s) := by
  unfold execSnapshotWriteDone
  refine leaves_next ?_
  split
  · exact .refl s
  · next hs => exact endDone hs

theorem snapshotWriteFault (k : SlotId) (e : Nat) : Leaves (execSnapshotWriteFault k s e) (KeepsRegulation s) := by
  unfold execSnapshotWriteFault
  refine leaves_next ?_
  split
  · exact .refl s
  · next hs => exact (endFailed hs).trans (.of_banks rfl rfl)

theorem resultWrite (k : SlotId) : Leaves (execResultWrite k s) (KeepsRegulation s) := by
  unfold execResultWrite
  refine leaves_next ?_
  split
  · exact .refl s
  · split
    · split
      · exact .refl s
      · split
        · exact .refl s
        · split <;> exact .of_banks rfl rfl
    all_goals exact .refl s

theorem resultWriteDone (n : ResultRingId) (i : RingIndex) (e : Nat) :
    Leaves (execResultWriteDone n i s e) (KeepsRegulation s) := by
  unfold execResultWriteDone
  refine leaves_next ?_
  split
  · exact .refl s
  · split
    · exact .refl s
    · next s' hs =>
      have produced := (endDone hs).trans (recordProduced s' n)
      dsimp only
      split
      · exact ((produced.trans (freeSlot _ _)).trans (afterLastTask _)).trans (settleDrains _)
      · exact (produced.trans (noticeWritten _ _ n)).trans (settleDrains _)
      · exact produced

theorem resultWriteFault (n : ResultRingId) (i : RingIndex) (e : Nat) :
    Leaves (execResultWriteFault n i s e) (KeepsRegulation s) := by
  unfold execResultWriteFault
  refine leaves_next ?_
  split
  · exact .refl s
  · split
    · exact .refl s
    · next hs => exact (endFailed hs).trans (halt _ _)

theorem writebackDone (place : Place) (e : Nat) : Leaves (execWritebackDone place s e) (KeepsRegulation s) := by
  unfold execWritebackDone
  refine leaves_next ?_
  split
  · exact .refl s
  · next hs => exact endDone hs

theorem writebackFault (place : Place) (e : Nat) : Leaves (execWritebackFault place s e) (KeepsRegulation s) := by
  unfold execWritebackFault
  refine leaves_next ?_
  split
  · exact .refl s
  · next hs => exact (endFailed hs).trans (halt _ _)

theorem setupReadDone (block : Block64) (e : Nat) : Leaves (execSetupReadDone block s e) (KeepsRegulation s) := by
  unfold execSetupReadDone
  refine leaves_next ?_
  split
  · next hs =>
    split
    · exact (endDone hs).trans (.of_banks rfl rfl)
    · exact (endDone hs).trans (halt _ _)
  · exact .refl s

theorem setupReadFault (e : Nat) : Leaves (execSetupReadFault s e) (KeepsRegulation s) := by
  unfold execSetupReadFault
  refine leaves_next ?_
  split
  · exact .refl s
  · next hs => exact (endFailed hs).trans (halt _ _)

theorem completeStartUp (u : Setup) : KeepsRegulation s (s.completeStartUp u) := by
  refine .of_banks (State.completeStartUp_stations s u) ?_
  rw [State.completeStartUp, apply_ite State.sets]
  exact ite_self _

theorem writebackZeroingDone (e : Nat) : Leaves (execWritebackZeroingDone s e) (KeepsRegulation s) := by
  unfold execWritebackZeroingDone
  refine leaves_next ?_
  split
  · next hs _ => exact (endDone hs).trans (completeStartUp _ _)
  · exact .refl s

theorem writebackZeroingFault (e : Nat) : Leaves (execWritebackZeroingFault s e) (KeepsRegulation s) := by
  unfold execWritebackZeroingFault
  refine leaves_next ?_
  split
  · exact .refl s
  · next hs => exact (endFailed hs).trans (halt _ _)

/-! ## Executions -/

/-- A home-ring command whose change continues the station. -/
theorem homeCommand (k : SlotId) (kind : Nat) (fields : Block64 → Bool) {act : Block64 → Station → Station}
    (hact : ∀ r (c : Station), c.Continues (act r c)) : KeepsRegulation s (s.homeCommand k kind fields act) := by
  refine .executing fun t r => ?_
  split
  · exact .of_banks rfl rfl
  · next id c hc =>
    exact .of_set rfl (State.homeCheck_opened hc ▸ Context.continues_opened (hact r c)) (.refl _)

theorem deleteWorkRing (k : SlotId) : Leaves (execDeleteWorkRing k s) (KeepsRegulation s) := by
  refine leaves_next (.executing fun t r => ?_)
  split
  · exact .of_banks rfl rfl
  · refine .trans ?_ (endDeleteDrain _ k)
    exact .of_banks rfl rfl

theorem closeStation (k : SlotId) : Leaves (execCloseStation k s) (KeepsRegulation s) := by
  refine leaves_next (.executing fun t r => ?_)
  split
  · exact .of_banks rfl rfl
  · next id c hc =>
    refine .trans ?_ (endCloseDrain _ k)
    exact .of_set rfl (State.closeCheck_opened hc ▸ Context.continues_closing (.refl c)) (.refl _)

theorem stageOpen (k : SlotId) : Leaves (execStageOpen k s) (KeepsRegulation s) := by
  refine leaves_next (.executing fun t r => ?_)
  split
  · exact .of_banks rfl rfl
  · next i _ => exact ⟨fun _ => .refl _, .set i (List.nil_sublist _)⟩

theorem stageDiscard (k : SlotId) : Leaves (execStageDiscard k s) (KeepsRegulation s) := by
  have freed (i : SetId) : ItemsKept s.sets (s.sets.set i .free) := .set_free s.sets i
  refine leaves_next (.executing fun t r => ?_)
  split
  · exact .of_banks rfl rfl
  · next i _ =>
    split
    · exact ⟨fun _ => .refl _, freed i⟩
    · exact ⟨fun _ => .refl _, freed i⟩
    · split
      · exact .of_banks rfl rfl
      · exact ⟨fun _ => .refl _, freed i⟩
      · next hc =>
        exact .of_set rfl (hc ▸ Context.continues_opened ⟨rfl, rfl, rfl, .refl _⟩) (freed i)

theorem badKind (k : SlotId) : Leaves (execBadKind k s) (KeepsRegulation s) := by
  unfold execBadKind
  refine leaves_next ?_
  split
  · split <;> exact .of_banks rfl rfl
  · exact .refl s

theorem recordUnreadable (k : SlotId) : Leaves (execRecordUnreadable k s) (KeepsRegulation s) := by
  unfold execRecordUnreadable
  refine leaves_next ?_
  split <;> exact .of_banks rfl rfl

end KeepsRegulation

theorem Station.continues_thaw (c : Station) : c.Continues c.thaw := by
  unfold Station.thaw
  split
  · exact .trans (d := { c with loop := .seeking }) ⟨rfl, rfl, rfl, .refl _⟩ (Station.continues_raise _ _)
  · exact .refl c

theorem Station.continues_reseek (c : Station) : c.Continues c.reseek :=
  c.continues_cut.trans ⟨rfl, rfl, rfl, .refl _⟩

/-- The five commands that form entries, profiles or items. -/
def formsRegulation : Instr → Bool
  | .openStation _ | .measure _ | .setActuators _ | .stagePut _ | .stageCommit _ => true
  | _ => false

theorem exec_keepsRegulation {i : Instr} (hi : formsRegulation i = false) (s : State) :
    Leaves (exec i s) (KeepsRegulation s) := by
  have answered {k : SlotId} {kind : Nat} {act : Task → Block64 → State}
      (h : ∀ t r, KeepsRegulation s (act t r)) : Leaves (.next (s.executing k kind act)) (KeepsRegulation s) :=
    leaves_next (.executing h)
  cases i with
  | openStation | measure | setActuators | stagePut | stageCommit => cases hi
  | queryDevice k => exact answered fun t r => by split <;> exact .of_banks rfl rfl
  | createWorkRing k => exact answered fun t r => by split <;> exact .of_banks rfl rfl
  | deleteWorkRing k => exact .deleteWorkRing s k
  | createResultRing k => exact answered fun t r => by split <;> exact .of_banks rfl rfl
  | deleteResultRing k => exact answered fun t r => by split <;> exact .of_banks rfl rfl
  | closeStation k => exact .closeStation s k
  | readStation k => exact answered fun t r => by split <;> exact .of_banks rfl rfl
  | freeze k => exact leaves_next (.homeCommand s _ _ _ fun _ _ => ⟨rfl, rfl, rfl, .refl _⟩)
  | thaw k => exact leaves_next (.homeCommand s _ _ _ fun _ c => c.continues_thaw)
  | reseek k => exact leaves_next (.homeCommand s _ _ _ fun _ c => c.continues_reseek)
  | ackNotice k => exact leaves_next (.homeCommand s _ _ _ fun _ _ => ⟨rfl, rfl, rfl, .refl _⟩)
  | stageOpen k => exact .stageOpen s k
  | stageDiscard k => exact .stageDiscard s k
  | badKind k => exact .badKind s k
  | recordUnreadable k => exact .recordUnreadable s k
  | softReset v | startUp v | enableOff v | quiesce v | quiesceClear v => exact leaves_next (.reached (.writeCtrl s v))
  | postWork v | releaseResult v | badOperation v => exact leaves_next (.reached (.writePost s v))
  | causeClear v | maskWrite v => exact leaves_next (.reached (.of_banks rfl rfl))
  | registerWrite offset bytes v =>
    refine leaves_next (.reached ?_)
    split
    · exact .writeRegister s offset v
    · exact .refl s
  | powerOnReset | pinReset => exact leaves_next ((KeepsRegulation.teardown s).trans (.of_banks rfl rfl))
  | linkDown | linkUp | completionTimeout _ _ | configurationSpaceWrite _ => exact leaves_next (.of_banks rfl rfl)
  | take => exact .take s
  | recordReadDone k r e => exact .recordReadDone s k r e
  | recordReadFault k e => exact .recordReadFault s k e
  | gridReadDone k data e => exact .gridReadDone s k data e
  | gridReadFault k e => exact .gridReadFault s k e
  | snapshotWriteDone k e => exact .snapshotWriteDone s k e
  | snapshotWriteFault k e => exact .snapshotWriteFault s k e
  | resultWrite k => exact .resultWrite s k
  | resultWriteDone n i e => exact .resultWriteDone s n i e
  | resultWriteFault n i e => exact .resultWriteFault s n i e
  | writebackFault place e => exact .writebackFault s place e
  | setupReadDone block e => exact .setupReadDone s block e
  | setupReadFault e => exact .setupReadFault s e
  | writebackZeroingDone e => exact .writebackZeroingDone s e
  | writebackZeroingFault e => exact .writebackZeroingFault s e
  | closeDrainEnd k => exact leaves_next (.endCloseDrain s k)
  | deleteDrainEnd k => exact leaves_next (.endDeleteDrain s k)
  | noticeEmission id => exact leaves_next (.emitNotice s id)
  | writebackDone place e => exact .writebackDone s place e

end Sys2Proof.Machine
end

section
/-! The five commands that form entries, profiles or items keep the regulation in range, and so does every step. -/
namespace Sys2Proof.Machine

/-! ## The invariant by banks -/

/-- The station of a context, if it holds one, regulates in range. -/
def Context.Regulates (x : Context) : Prop := ∀ c, x.station = some c → c.Regulates

theorem regulationSound_iff (s : State) :
    RegulationSound s ↔ (∀ id : StationId, (s.stations[id]).Regulates) ∧ ∀ i : SetId, (s.sets[i]).InRange where
  mp h := ⟨fun id c hc => ⟨h.lines id c hc, h.delay id c hc, h.profile id c hc, h.entry id c hc⟩, h.item⟩
  mpr := fun ⟨hc, hi⟩ => {
    lines := fun id c h => (hc id c h).lines
    delay := fun id c h => (hc id c h).delay
    profile := fun id c h => (hc id c h).profile
    entry := fun id c h => (hc id c h).entry
    item := hi }

namespace RegulationSound
variable {s t : State} (h : RegulationSound s)
include h

theorem context (id : StationId) : (s.stations[id]).Regulates := ((regulationSound_iff s).mp h).1 id

theorem inRange (i : SetId) : (s.sets[i]).InRange := h.item i

theorem opened {id : StationId} {c : Station} (hc : s.stations[id] = .opened c) : c.Regulates :=
  h.context id c (by rw [hc]; rfl)

theorem keep (ht : KeepsRegulation s t) : RegulationSound t := by
  refine (regulationSound_iff t).mpr ⟨fun id d hd => ?_, ht.items.inRange h.inRange⟩
  obtain ⟨c, hc, hcd⟩ := ht.stations id d hd
  exact (h.context id c hc).continued hcd

/-- One station is written that regulates in range, and no item is put. -/
theorem of_opened {id : StationId} {c : Station} (stations : t.stations = s.stations.set id (.opened c))
    (hc : c.Regulates) (items : ItemsKept s.sets t.sets) : RegulationSound t := by
  refine (regulationSound_iff t).mpr ⟨fun j => ?_, items.inRange h.inRange⟩
  rw [stations, get_set]
  split
  · intro d hd
    cases hd
    exact hc
  · exact h.context j

theorem executing {k : SlotId} {kind : Nat} {act : Task → Block64 → State} (hact : ∀ t r, RegulationSound (act t r)) :
    RegulationSound (s.executing k kind act) := by
  rcases s.executing_cases k kind act with e | ⟨t, r, -, e⟩
  · rw [e]
    exact h
  · rw [e]
    exact hact t r

end RegulationSound

/-! ## The items of a set that a command names -/

theorem openSetCheck_items {ring : WorkRingId} {x : StagingSet} {items : List Item}
    (h : openSetCheck ring x = .ok items) : items = x.items := by
  unfold openSetCheck at h
  split at h
  · cases h
  · cases h
  · split at h
    · cases h
      rfl
    · cases h

/-! ## OPEN_STATION (R4 to R6, R73) -/

theorem leNat_lt (bytes : List Byte) : leNat bytes < 256 ^ bytes.length := by
  induction bytes with
  | nil => exact Nat.one_pos
  | cons b rest ih =>
    have := b.isLt
    rw [leNat, List.length_cons, pow_succ]
    omega

theorem content_lt (b : Block64) (offset size : Nat) : content b offset size < 256 ^ size :=
  (leNat_lt _).trans_le (Nat.pow_le_pow_right (by decide) (List.length_take_le ..))

theorem State.openCheck_request {s : State} {t : Task} {r : Block64} {q : OpenRequest} {items : List Item}
    (h : s.openCheck t r = .ok (q, items)) : openRequest r = some q ∧ s.openItems q.set = .ok items := by
  unfold State.openCheck at h
  split at h
  · cases h
  · split at h
    · cases h
    · next q' hq =>
      split at h
      · cases h
      · split at h
        · cases h
        · next items' hi =>
          split at h
          · cases h
            exact ⟨hq, hi⟩
          · cases h

theorem RegulationSound.openItems {s : State} (h : RegulationSound s) {set : Option SetId} {items : List Item}
    (hi : s.openItems set = .ok items) : ∀ it ∈ items, ItemInRange it := by
  cases set with
  | none =>
    cases hi
    exact fun _ hit => absurd hit List.not_mem_nil
  | some i =>
    rw [openSetCheck_items hi]
    exact h.inRange i

theorem openedStation_regulates {q : OpenRequest} {r : Block64} {p : Profile} (hq : openRequest r = some q)
    (hp : ProfileInRange p) : (openedStation q r p).Regulates := by
  obtain ⟨-, -, -, hsize, hdelay, -⟩ := openRequest_range hq
  have lines : recordSize r < 256 ^ 2 := content_lt r 0x0C 2
  exact {
    lines := ⟨hsize, Nat.le_of_lt_succ lines⟩
    delay := hdelay
    profile := hp
    entry := fun e he => List.mem_singleton.mp he ▸ entrySound_treat hp (by omega) none _ _ _ }

theorem State.freeNamed_items (s : State) (set : Option SetId) : ItemsKept s.sets (s.freeNamed set).sets := by
  cases set with
  | none => exact .refl _
  | some i => exact .set_free s.sets i

theorem RegulationSound.openStation {s : State} (h : RegulationSound s) (k : SlotId) :
    Leaves (execOpenStation k s) RegulationSound := by
  refine leaves_next (h.executing fun t r => ?_)
  split
  · exact h.keep (.of_banks rfl rfl)
  · next q items hok =>
    obtain ⟨hq, hi⟩ := State.openCheck_request hok
    dsimp only
    split
    · exact h.keep (.of_banks rfl rfl)
    · have merged := profileInRange_merge profileInRange_defaults (h.openItems hi)
      exact h.of_opened (id := q.id) (by simp) (openedStation_regulates hq merged) (s.freeNamed_items q.set)

/-! ## MEASURE and SET_ACTUATORS (R18, R38, R74) -/

theorem RegulationSound.measure {s : State} (h : RegulationSound s) (k : SlotId) :
    Leaves (execMeasure k s) RegulationSound := by
  refine leaves_next (h.executing fun t r => ?_)
  split
  · exact h.keep (.of_banks rfl rfl)
  · next id c hc =>
    have regulates := (h.opened (State.homeCheck_opened hc)).evaluate (recordFrame r) (gridSource r t.grid) h.inRange
    exact h.of_opened rfl regulates (evaluate_items _ _ c s.sets)

theorem Station.Regulates.setActuators {c : Station} (h : c.Regulates) (f : Frame) (i g l : Nat) :
    (c.setActuators f i g l).Regulates := by
  have lines : 1 ≤ c.frameLines := Nat.le_trans (by decide) h.lines.1
  have treated : ({ c with
      older := [], newest := entryOf c.frameLines (some f) (treat c.profile c.frameLines i g l) } : Station).Regulates :=
    ⟨h.lines, h.delay, h.profile,
      fun e he => List.mem_singleton.mp he ▸ entrySound_treat h.profile lines (some f) i g l⟩
  unfold Station.setActuators
  dsimp only
  split
  · exact treated
  · exact treated.continued (continues_enter _ _)

theorem RegulationSound.setActuators {s : State} (h : RegulationSound s) (k : SlotId) :
    Leaves (execSetActuators k s) RegulationSound := by
  refine leaves_next (h.executing fun t r => ?_)
  split
  · exact h.keep (.of_banks rfl rfl)
  · next id c hc =>
    exact h.of_opened rfl ((h.opened (State.homeCheck_opened hc)).setActuators _ _ _ _) (.refl _)

/-! ## STAGE_PUT (R103, R104) -/

theorem putRequest_inRange {r : Block64} {i : SetId} {items : List Item} (h : putRequest r = some (i, items)) :
    ∀ it ∈ items, ItemInRange it := by
  unfold putRequest at h
  split at h
  · cases h
  · split at h
    · obtain ⟨items', hi, e⟩ := Option.map_eq_some_iff.mp h
      cases e
      exact recordItems_inRange hi
    · cases h

theorem RegulationSound.putCheck {s : State} (h : RegulationSound s) {t : Task} {r : Block64} {i : SetId}
    {items : List Item} (hp : s.putCheck t r = .ok (i, items)) : ∀ it ∈ items, ItemInRange it := by
  unfold State.putCheck at hp
  split at hp
  · cases hp
  · next j put hput =>
    split at hp
    · cases hp
    · next held hheld =>
      split at hp
      · cases hp
      · cases hp
        exact putItems_inRange (putRequest_inRange hput) (openSetCheck_items hheld ▸ h.inRange i)

theorem RegulationSound.stagePut {s : State} (h : RegulationSound s) (k : SlotId) :
    Leaves (execStagePut k s) RegulationSound := by
  refine leaves_next (h.executing fun t r => ?_)
  split
  · exact h.keep (.of_banks rfl rfl)
  · next i items hp =>
    refine (regulationSound_iff _).mpr ⟨h.context, fun j => ?_⟩
    show ((s.sets.set i (.opened t.ring items))[j]).InRange
    rw [get_set]
    split
    · exact h.putCheck hp
    · exact h.inRange j

/-! ## STAGE_COMMIT (R106 to R108) -/

theorem State.commitCheck_items {s : State} {t : Task} {r : Block64} {q : CommitRequest}
    (h : s.commitCheck t r = .ok q) : q.items = (s.sets[q.setId]).items := by
  unfold State.commitCheck at h
  split at h
  · split at h
    · cases h
    · split at h
      · cases h
      · next items hi =>
        split at h
        · cases h
        · split at h
          · cases h
          · cases h
            exact openSetCheck_items hi
        · split at h <;> cases h
  · cases h

theorem RegulationSound.commitAtFrame {s : State} (h : RegulationSound s) (k : SlotId) (t : Task) (r : Block64)
    {q : CommitRequest} (hq : q.station.Regulates) (hi : q.items = (s.sets[q.setId]).items) :
    RegulationSound (s.commitAtFrame k t r q) := by
  unfold State.commitAtFrame
  dsimp only
  split
  · exact h.keep (.of_banks rfl rfl)
  · split
    · exact h.keep (.of_banks rfl rfl)
    · have armed : ItemsKept s.sets (s.sets.set q.setId (.armed t.ring q.items q.id (recordFrame r))) :=
        .set q.setId (show q.items.Sublist _ from hi ▸ .refl _)
      exact h.of_opened rfl (hq.continued ⟨rfl, rfl, rfl, .refl _⟩) armed

theorem RegulationSound.commitImmediate {s : State} (h : RegulationSound s) (k : SlotId) (t : Task) (r : Block64)
    {q : CommitRequest} (hq : q.station.Regulates) (hi : q.items = (s.sets[q.setId]).items) :
    RegulationSound (s.commitImmediate k t r q) := by
  have merged : ({ q.station with profile := q.station.profile.merge q.items } : Station).Regulates :=
    ⟨hq.lines, hq.delay, profileInRange_merge hq.profile (hi ▸ h.inRange q.setId), hq.entry⟩
  unfold State.commitImmediate
  dsimp only
  split
  · exact h.keep (.of_banks rfl rfl)
  · exact h.of_opened rfl (merged.continued (Station.continues_raise _ _)) (.set_free s.sets q.setId)

theorem RegulationSound.stageCommit {s : State} (h : RegulationSound s) (k : SlotId) :
    Leaves (execStageCommit k s) RegulationSound := by
  refine leaves_next (h.executing fun t r => ?_)
  split
  · exact h.keep (.of_banks rfl rfl)
  · next q hq =>
    have regulates := h.opened (State.commitCheck_opened hq)
    have items := State.commitCheck_items hq
    split
    · exact h.commitAtFrame k t r regulates items
    · exact h.commitImmediate k t r regulates items

/-! ## Every command -/

theorem regulationSound_exec (i : Instr) (s : State) (h : RegulationSound s) : Leaves (exec i s) RegulationSound := by
  cases hi : formsRegulation i with
  | false => exact fun t e => h.keep (exec_keepsRegulation hi s t e)
  | true =>
    cases i with
    | openStation k => exact h.openStation k
    | measure k => exact h.measure k
    | setActuators k => exact h.setActuators k
    | stagePut k => exact h.stagePut k
    | stageCommit k => exact h.stageCommit k
    | _ => cases hi

/-- Settles O59: five commands form entries, profiles and items, each from accepted values; all else carries them on. -/
theorem regulationStaysInRange : Obligations.RegulationStaysInRange := by
  unfold Obligations.RegulationStaysInRange
  exact fun s t h e => step_keeps (fun s rest h => h.keep (.of_banks rfl rfl)) regulationSound_exec h e

end Sys2Proof.Machine
end

section
/-! The decision history (R79 to R82): the trim is a suffix of the history that starts at the entry in force, and a push
keeps the entries that survive it. -/
namespace Sys2Proof.Machine

/-! ## The trim and the entry in force (R79, R82) -/

section trim
variable {f : Frame} {older rest : List Entry} {newest e : Entry}

/-- An entry goes when one after it, in force already, supersedes it (R82). -/
theorem trimOlder_superseded (h : ∃ x ∈ rest ++ [newest], x.notAfter f = true) :
    trimOlder f (e :: rest) newest = trimOlder f rest newest :=
  if_pos (List.any_eq_true.mpr h)

/-- An entry with none in force after it stays, and with it all that follow. -/
theorem trimOlder_kept (h : ¬∃ x ∈ rest ++ [newest], x.notAfter f = true) :
    trimOlder f (e :: rest) newest = e :: rest :=
  if_neg fun h' => h (List.any_eq_true.mp h')

theorem trimOlder_suffix (f : Frame) (older : List Entry) (newest : Entry) : trimOlder f older newest <:+ older := by
  induction older with
  | nil => exact List.suffix_rfl
  | cons e rest ih =>
    by_cases h : ∃ x ∈ rest ++ [newest], x.notAfter f = true
    · rw [trimOlder_superseded h]
      exact ih.trans (List.suffix_cons e rest)
    · rw [trimOlder_kept h]

theorem trimOlder_idem (f : Frame) (older : List Entry) (newest : Entry) :
    trimOlder f (trimOlder f older newest) newest = trimOlder f older newest := by
  induction older with
  | nil => rfl
  | cons e rest ih =>
    by_cases h : ∃ x ∈ rest ++ [newest], x.notAfter f = true
    · rw [trimOlder_superseded h, ih]
    · rw [trimOlder_kept h, trimOlder_kept h]

/-- The entry in force is the oldest that the trim leaves. -/
theorem head?_trimOlder (f : Frame) (older : List Entry) (newest : Entry) :
    (trimOlder f older newest ++ [newest]).head? = some (inForce f older newest) := by
  unfold inForce
  cases trimOlder f older newest <;> rfl

/-- Behind the entry in force the trim leaves only entries after the frame. -/
theorem trimOlder_tail (f : Frame) (older : List Entry) (newest : Entry) :
    ∀ e ∈ (trimOlder f older newest ++ [newest]).tail, e.notAfter f = false := by
  induction older with
  | nil => exact fun e he => absurd he List.not_mem_nil
  | cons e rest ih =>
    by_cases h : ∃ x ∈ rest ++ [newest], x.notAfter f = true
    · rwa [trimOlder_superseded h]
    · rw [trimOlder_kept h]
      exact fun x hx => Bool.eq_false_iff.mpr fun hn => h ⟨x, hx, hn⟩

/-- Where any entry is not after the frame, the one in force is not (R79). -/
theorem inForce_notAfter (h : ∃ x ∈ older ++ [newest], x.notAfter f = true) :
    (inForce f older newest).notAfter f = true := by
  induction older with
  | nil =>
    obtain ⟨x, hx, hn⟩ := h
    exact List.mem_singleton.mp hx ▸ hn
  | cons e rest ih =>
    by_cases hrest : ∃ x ∈ rest ++ [newest], x.notAfter f = true
    · rw [inForce, trimOlder_superseded hrest]
      exact ih hrest
    · rw [inForce, trimOlder_kept hrest]
      obtain ⟨x, hx, hn⟩ := h
      rcases List.mem_cons.mp hx with rfl | hx
      · exact hn
      · exact absurd ⟨x, hx, hn⟩ hrest

/-- The trim removes an entry only where one after it is in force already. -/
theorem inForce_notAfter_of_trimmed (h : trimOlder f older newest ≠ older) :
    (inForce f older newest).notAfter f = true := by
  cases older with
  | nil => exact absurd rfl h
  | cons e rest =>
    by_cases hrest : ∃ x ∈ rest ++ [newest], x.notAfter f = true
    · obtain ⟨x, hx, hn⟩ := hrest
      exact inForce_notAfter ⟨x, List.mem_cons_of_mem e hx, hn⟩
    · exact absurd (trimOlder_kept hrest) h

end trim

/-! ## The push (R80, R81) -/

theorem Entry.survives_iff {x : Frame} {e : Entry} :
    e.survives x = true ↔ e.effective = none ∨ ∃ y, e.effective = some y ∧ frameAfter x y = true := by
  unfold Entry.survives
  cases e.effective with
  | none => simp
  | some y => simp

section push
variable {x : Frame} {c : Station} (entry : Entry)

theorem Station.push_survives (h : c.newest.survives x = true) :
    c.push x entry = { c with older := c.history, newest := entry } :=
  if_pos h

theorem Station.push_supersedes (h : ¬c.newest.survives x = true) :
    c.push x entry = { c with older := c.history.filter (·.survives x), newest := entry } :=
  if_neg h

end push

/-- Settles O51: the trim by induction on the older entries, the push by whether the newest survives it. -/
theorem trimLeavesTheEntryInForce : Obligations.TrimLeavesTheEntryInForce := by
  unfold Obligations.TrimLeavesTheEntryInForce
  refine ⟨fun x entry c => ?_, fun f older newest => ?_⟩
  · simp only [← Entry.survives_iff]
    exact ⟨Station.push_survives entry, fun h => ⟨_, Station.push_supersedes entry h, List.filter_sublist,
      fun _ => List.mem_filter⟩⟩
  · obtain ⟨dropped, split⟩ := trimOlder_suffix f older newest
    refine ⟨⟨dropped, ?_⟩, head?_trimOlder f older newest, trimOlder_tail f older newest,
      fun h => inForce_notAfter_of_trimmed fun same => h (congrArg (· ++ [newest]) same), ?_⟩
    · rw [← List.append_assoc, split]
    · rw [inForce, trimOlder_idem, inForce]

end Sys2Proof.Machine
end

section
/-! Stages 4 and 5 of a MEASURE: the gap test with the action of GAP_POLICY (R87 to R89), and the application of the armed
sets (R110 to R113). -/
namespace Sys2Proof.Machine

/-! ## The gap check (R87 to R89) -/

section gap
variable {f : Frame} {c : Station}

theorem Station.gapAt_iff :
    c.gapAt f = true ↔ ∃ last, c.lastFrame = some last ∧
      c.profile.gapLimit * (inForce last c.older c.newest).span < (f - last).toNat := by
  unfold Station.gapAt frameDistance
  cases c.lastFrame with
  | none => simp
  | some last => simp

theorem gapStage_noGap (h : ¬c.gapAt f = true) : gapStage f c = ⟨c, []⟩ := by
  unfold gapStage
  rw [Bool.eq_false_iff.mpr h]
  rfl

theorem gapStage_report (h : c.gapAt f = true) (hp : c.profile.gapPolicy = .report) : gapStage f c = ⟨c, [.gap]⟩ := by
  unfold gapStage
  rw [h, hp]
  rfl

/-- A RESEEK of a station that is FROZEN or SEEKING already cuts its history only (R88). -/
theorem gapStage_cut (h : c.gapAt f = true) (hp : c.profile.gapPolicy = .reseek)
    (hl : c.loop = .frozen ∨ c.loop = .seeking) : gapStage f c = ⟨c.cut, [.gap]⟩ := by
  unfold gapStage
  rw [h, hp]
  rcases hl with hl | hl <;> rw [hl] <;> rfl

theorem gapStage_reseek (h : c.gapAt f = true) (hp : c.profile.gapPolicy = .reseek) (hf : c.loop ≠ .frozen)
    (hs : c.loop ≠ .seeking) : gapStage f c = ⟨{ c.cut with loop := .seeking }, [.gap, .seek]⟩ := by
  unfold gapStage
  rw [h, hp]
  cases hl : c.loop with
  | frozen => exact absurd hl hf
  | seeking => exact absurd hl hs
  | idle => rfl
  | settled => rfl
  | pinnedDark => rfl
  | pinnedBright => rfl

end gap

/-! ## Armed application (R110 to R113) -/

section armed
variable {f e : Frame} {c : Station} {sets : Vector StagingSet 8} {a : SetId} {owner : WorkRingId} {items : List Item}
  {id : StationId}

/-- A consistent merge is installed and raises APPLIED under the mask that it brings (R20, R110). -/
theorem landItems_applied (h : ConsistentProfile (c.profile.merge items)) :
    landItems items c = { c with
      profile := c.profile.merge items
      pendingSet := c.pendingSet ||| (0x040#9 &&& (c.profile.merge items).noticeMask) } :=
  if_pos ((consistent_iff _).mpr h)

/-- An inconsistent merge is dropped and raises REJECTED under the mask as it stands (R20, R113). -/
theorem landItems_rejected (h : ¬ConsistentProfile (c.profile.merge items)) :
    landItems items c = { c with pendingSet := joined c 0x080#9 } :=
  if_neg (mt (consistent_iff _).mp h)

theorem applySets_notDue (rest : List SetId) (hs : sets[a] = .armed owner items id e) (h : frameAfter e f = true) :
    applySets f (a :: rest) c sets = applySets f rest c sets := by
  rw [applySets, hs]
  exact if_pos h

/-- A set due lands, leaves the armed list and becomes FREE (R112, R113). -/
theorem applySets_due (rest : List SetId) (hs : sets[a] = .armed owner items id e) (h : frameAfter e f = false) :
    applySets f (a :: rest) c sets =
      applySets f rest { landItems items c with armed := c.armed.erase a } (sets.set a .free) := by
  rw [applySets, hs]
  exact if_neg (Bool.eq_false_iff.mp h)

end armed

/-- Settles O52: stage 4 by the gap, the policy and the loop state; stage 5 by whether the first set listed is due and its
merge consistent. -/
theorem stagesFourAndFive : Obligations.StagesFourAndFive := by
  unfold Obligations.StagesFourAndFive
  refine ⟨fun f c => ?_, fun f c sets => ⟨rfl, rfl, fun a rest owner items id e hs => ?_⟩⟩
  · simp only [← Station.gapAt_iff]
    refine ⟨fun h => ?_, fun h hp => ?_, fun h hp hl => ?_, fun h hp hf hsk => ?_⟩
    · rw [gapStage_noGap h]; exact ⟨rfl, rfl⟩
    · rw [gapStage_report h hp]; exact ⟨rfl, rfl⟩
    · rw [gapStage_cut h hp hl]; exact ⟨rfl, rfl⟩
    · rw [gapStage_reseek h hp hf hsk]; exact ⟨rfl, rfl⟩
  · refine ⟨applySets_notDue rest hs, fun due ok => ?_, fun due bad => ?_⟩
    · rw [applySets_due rest hs due, landItems_applied ok]
    · rw [applySets_due rest hs due, landItems_rejected bad]

end Sys2Proof.Machine
end

section
/-! Putting items into a set (R103, R104): the fields held keep their places, new ones follow, and a field's value is the
last one put. -/
namespace Sys2Proof.Machine

/-! ## The fields of a set -/

/-- The fields of a list of items, in order. -/
abbrev fieldsOf (items : List Item) : List Field := items.map (·.1)

/-- Read from the end, a put inserts its field where it is not held. -/
theorem fieldsOf_putItem (it : Item) (held : List Item) :
    (fieldsOf (putItem it held)).reverse = (fieldsOf held).reverse.insert it.1 := by
  induction held with
  | nil => rfl
  | cons x rest ih =>
    unfold putItem
    split
    · next h => simp [fieldsOf, h]
    · next h =>
      by_cases hr : it.1 ∈ fieldsOf rest
      · rw [List.insert_of_mem (List.mem_reverse.mpr hr)] at ih
        rw [List.insert_of_mem (by simp [hr])]
        simpa [fieldsOf] using ih
      · rw [List.insert_of_not_mem (mt List.mem_reverse.mp hr)] at ih
        rw [List.insert_of_not_mem (by simpa [fieldsOf, Ne.symm h] using hr)]
        show (x.1 :: fieldsOf (putItem it rest)).reverse = it.1 :: (x.1 :: fieldsOf rest).reverse
        rw [List.reverse_cons, List.reverse_cons, ih, List.cons_append]

theorem putItems_concat (items : List Item) (x : Item) (held : List Item) :
    putItems (items ++ [x]) held = putItem x (putItems items held) :=
  List.foldl_concat ..

/-- Read from the end, the fields after a put are those put and those held, each once (R104). -/
theorem fieldsOf_putItems (items held : List Item) :
    (fieldsOf (putItems items held)).reverse = (fieldsOf items).reverse ∪ (fieldsOf held).reverse := by
  induction items using List.reverseRecOn with
  | nil => rfl
  | append_singleton items x ih =>
    have concat : fieldsOf (items ++ [x]) = fieldsOf items ++ [x.1] := List.map_append
    rw [putItems_concat, fieldsOf_putItem, ih, concat, List.reverse_concat, List.cons_union]

theorem nodup_putItems (items : List Item) {held : List Item} (h : (fieldsOf held).Nodup) :
    (fieldsOf (putItems items held)).Nodup := by
  rw [← List.nodup_reverse, fieldsOf_putItems]
  exact (List.nodup_reverse.mpr h).union _

/-- The fields held keep their places. -/
theorem fieldsOf_putItems_extends (items held : List Item) : fieldsOf held <+: fieldsOf (putItems items held) := by
  rw [← List.reverse_suffix, fieldsOf_putItems]
  exact List.suffix_union_right _ _

theorem length_le_putItems (items held : List Item) : held.length ≤ (putItems items held).length := by
  simpa [fieldsOf] using (fieldsOf_putItems_extends items held).length_le

/-- A union adds before the second list what the first names and it does not hold, at its last place in the first. -/
theorem union_eq_filter_dedup (l m : List Field) : l ∪ m = (l.dedup.filter fun f => !m.contains f) ++ m := by
  induction l with
  | nil => rfl
  | cons f rest ih =>
    rw [List.cons_union]
    by_cases hr : f ∈ rest
    · rw [List.insert_of_mem (List.mem_union_iff.mpr (.inl hr)), List.dedup_cons_of_mem hr, ih]
    · rw [List.dedup_cons_of_notMem hr]
      by_cases hm : f ∈ m
      · rw [List.insert_of_mem (List.mem_union_iff.mpr (.inr hm)), List.filter_cons_of_neg (by simpa using hm), ih]
      · rw [List.insert_of_not_mem (by simp [hr, hm]), List.filter_cons_of_pos (by simpa using hm), ih,
          List.cons_append]

/-- The new fields follow in the order of their first appearance. -/
theorem drop_fieldsOf_putItems (items held : List Item) :
    (fieldsOf (putItems items held)).drop held.length =
      (fieldsOf items).reverse.dedup.reverse.filter fun f => !(fieldsOf held).contains f := by
  have split : fieldsOf (putItems items held) = fieldsOf held ++
      ((fieldsOf items).reverse.dedup.reverse.filter fun f => !(fieldsOf held).contains f) := by
    rw [← List.reverse_inj, fieldsOf_putItems, union_eq_filter_dedup]
    simp
  rw [split, List.drop_left' (by simp [fieldsOf])]

/-! ## The values of a set -/

theorem mem_putItem {f : Field} {v : BitVec 32} (it : Item) {held : List Item} (h : (fieldsOf held).Nodup) :
    (f, v) ∈ putItem it held ↔ (f, v) = it ∨ it.1 ≠ f ∧ (f, v) ∈ held := by
  obtain ⟨g, w⟩ := it
  induction held with
  | nil => simp [putItem]
  | cons x rest ih =>
    obtain ⟨hx, hrest⟩ := List.nodup_cons.mp h
    have other (hm : (f, v) ∈ rest) : x.1 ≠ f := by
      rintro rfl
      have held : x.1 ∈ fieldsOf rest := List.mem_map_of_mem (f := (·.1)) hm
      exact hx held
    unfold putItem
    split
    · next e =>
      rw [List.mem_cons, List.mem_cons]
      refine or_congr_right ⟨fun hm => ⟨e ▸ other hm, .inr hm⟩, fun ⟨hg, hm⟩ => hm.resolve_left fun he => hg ?_⟩
      rw [← he] at e
      exact e.symm
    · next e =>
      rw [List.mem_cons, List.mem_cons, ih hrest]
      have ne : (f, v) = x → g ≠ f := fun he hg => e (he ▸ hg.symm)
      tauto

/-- After a put a field named holds its last value, and every other its own (R104). -/
theorem mem_putItems {f : Field} {v : BitVec 32} (items : List Item) {held : List Item} (h : (fieldsOf held).Nodup) :
    (f, v) ∈ putItems items held ↔
      items.reverse.find? (fun it => it.1 == f) = some (f, v) ∨ (∀ it ∈ items, it.1 ≠ f) ∧ (f, v) ∈ held := by
  induction items using List.reverseRecOn with
  | nil => simp [putItems]
  | append_singleton items x ih =>
    rw [putItems_concat, mem_putItem x (nodup_putItems items h), ih, List.reverse_concat, List.forall_mem_append,
      List.forall_mem_singleton]
    by_cases hx : x.1 = f
    · rw [List.find?_cons_of_pos (by simpa using hx), Option.some_inj]
      simp [hx, eq_comm]
    · have ne : (f, v) ≠ x := fun e => hx (e ▸ rfl)
      rw [List.find?_cons_of_neg (by simpa using hx)]
      simp [hx, ne]

end Sys2Proof.Machine
end

section
/-! The pool stays within its 24 blocks and no set holds a field twice (R100, R101, R103): STAGE_PUT alone puts items,
and it tests the free blocks first. -/
namespace Sys2Proof.Machine

/-! ## The blocks held -/

theorem blocksFor_eq (n : Nat) : blocksFor n = (n + 7) / 8 := rfl

theorem blocksFor_mono {m n : Nat} (h : m ≤ n) : blocksFor m ≤ blocksFor n := by
  rw [blocksFor_eq, blocksFor_eq]
  omega

theorem heldBlocks_eq_sum (sets : Vector StagingSet 8) : heldBlocks sets = ∑ i : SetId, (sets[i]).blocks := by
  rw [heldBlocks, toList_eq_map_finRange, List.map_map, Fin.sum_univ_def]
  rfl

theorem heldBlocks_set (sets : Vector StagingSet 8) (i : SetId) (x : StagingSet) :
    heldBlocks (sets.set i x) + (sets[i]).blocks = heldBlocks sets + x.blocks := by
  have others : ∑ j ∈ Finset.univ.erase i, ((sets.set i x)[j]).blocks = ∑ j ∈ Finset.univ.erase i, (sets[j]).blocks :=
    Finset.sum_congr rfl fun j hj => by rw [get_set, if_neg (Finset.ne_of_mem_erase hj).symm]
  have split (v : Vector StagingSet 8) :
      heldBlocks v = (v[i]).blocks + ∑ j ∈ Finset.univ.erase i, (v[j]).blocks := by
    rw [heldBlocks_eq_sum, Finset.add_sum_erase _ (fun j : SetId => (v[j]).blocks) (Finset.mem_univ i)]
  rw [split, split sets, others, get_set, if_pos rfl]
  omega

theorem ItemsKept.heldBlocks_le {sets after : Vector StagingSet 8} (h : ItemsKept sets after) :
    heldBlocks after ≤ heldBlocks sets := by
  rw [heldBlocks_eq_sum, heldBlocks_eq_sum]
  exact Finset.sum_le_sum fun i _ => blocksFor_mono (h i).length_le

theorem PoolSound.held {s : State} (h : PoolSound s) : heldBlocks s.sets ≤ 24 := h.fits

theorem PoolSound.keep {s t : State} (h : PoolSound s) (kept : ItemsKept s.sets t.sets) : PoolSound t where
  once i := (h.once i).sublist ((kept i).map _)
  fits := kept.heldBlocks_le.trans h.held

/-! ## What the checks of the staging commands answer (R103, R106) -/

theorem openSetCheck_opened {ring : WorkRingId} {x : StagingSet} {items : List Item}
    (h : openSetCheck ring x = .ok items) : x = .opened ring items := by
  unfold openSetCheck at h
  split at h
  · cases h
  · cases h
  · split at h
    · next e => cases h; rw [e]
    · cases h

theorem openSetCheck_own (ring : WorkRingId) (items : List Item) :
    openSetCheck ring (.opened ring items) = .ok items := if_pos rfl

/-- A put that passes its checks has its set OPEN for the task's ring, and free blocks for its items (R103). -/
theorem State.putCheck_ok {s : State} {t : Task} {r : Block64} {i : SetId} {new : List Item}
    (h : s.putCheck t r = .ok (i, new)) :
    ∃ items held, s.sets[i] = .opened t.ring held ∧ new = putItems items held ∧
      blocksNeeded items held ≤ freeBlocks s.sets := by
  unfold State.putCheck at h
  split at h
  · cases h
  · next j items _ =>
    split at h
    · cases h
    · next held hheld =>
      split at h
      · cases h
      · next hfree =>
        cases h
        exact ⟨items, held, openSetCheck_opened hheld, rfl, not_lt.mp hfree⟩

/-! ## The commands that form entries, profiles or items -/

/-- What the act of every task keeps, an execution keeps. -/
theorem executing_leaves {P : State → Prop} {s : State} {k : SlotId} {kind : Nat} {act : Task → Block64 → State}
    (h : P s) (hact : ∀ t r, P (act t r)) : Leaves (.next (s.executing k kind act)) P := by
  refine leaves_next ?_
  rcases s.executing_cases k kind act with e | ⟨t, r, -, e⟩
  · rw [e]
    exact h
  · rw [e]
    exact hact t r

theorem execOpenStation_itemsKept (s : State) (k : SlotId) :
    Leaves (execOpenStation k s) fun t => ItemsKept s.sets t.sets := by
  refine executing_leaves (ItemsKept.refl s.sets) fun t r => ?_
  split
  · exact .refl _
  · next q items _ =>
    dsimp only
    split
    · exact .refl _
    · exact s.freeNamed_items q.set

theorem execMeasure_itemsKept (s : State) (k : SlotId) : Leaves (execMeasure k s) fun t => ItemsKept s.sets t.sets := by
  refine executing_leaves (ItemsKept.refl s.sets) fun t r => ?_
  split
  · exact .refl _
  · next id c _ => exact evaluate_items _ _ c s.sets

theorem execSetActuators_itemsKept (s : State) (k : SlotId) :
    Leaves (execSetActuators k s) fun t => ItemsKept s.sets t.sets := by
  refine executing_leaves (ItemsKept.refl s.sets) fun t r => ?_
  split <;> exact .refl _

theorem commitAtFrame_itemsKept (s : State) (k : SlotId) (t : Task) (r : Block64) {q : CommitRequest}
    (hi : q.items = (s.sets[q.setId]).items) : ItemsKept s.sets (s.commitAtFrame k t r q).sets := by
  unfold State.commitAtFrame
  dsimp only
  split
  · exact .refl _
  · split
    · exact .refl _
    · exact .set q.setId (show q.items.Sublist _ from hi ▸ .refl _)

theorem commitImmediate_itemsKept (s : State) (k : SlotId) (t : Task) (r : Block64) (q : CommitRequest) :
    ItemsKept s.sets (s.commitImmediate k t r q).sets := by
  unfold State.commitImmediate
  dsimp only
  split
  · exact .refl _
  · exact .set_free s.sets q.setId

theorem execStageCommit_itemsKept (s : State) (k : SlotId) :
    Leaves (execStageCommit k s) fun t => ItemsKept s.sets t.sets := by
  refine executing_leaves (ItemsKept.refl s.sets) fun t r => ?_
  split
  · exact .refl _
  · next q hq =>
    split
    · exact commitAtFrame_itemsKept s k t r (State.commitCheck_items hq)
    · exact commitImmediate_itemsKept s k t r q

/-- A put needs no more blocks than are free, and doubles no field (R103, R104). -/
theorem PoolSound.stagePut {s : State} (h : PoolSound s) (k : SlotId) : Leaves (execStagePut k s) PoolSound := by
  refine executing_leaves h fun t r => ?_
  split
  · exact h.keep (.refl _)
  · next i new hp =>
    obtain ⟨items, held, hset, rfl, hfree⟩ := State.putCheck_ok hp
    have fields := h.once i
    rw [hset] at fields
    refine ⟨fun j => ?_, ?_⟩
    · show (fieldsOf ((s.sets.set i (.opened t.ring (putItems items held)))[j]).items).Nodup
      rw [get_set]
      split
      · exact nodup_putItems items fields
      · exact h.once j
    · have sum := heldBlocks_set s.sets i (.opened t.ring (putItems items held))
      have grown := blocksFor_mono (length_le_putItems items held)
      have before := h.held
      rw [hset] at sum
      simp only [blocksNeeded, freeBlocks, Config.poolBlocks, StagingSet.blocks, StagingSet.items] at hfree sum
      show heldBlocks (s.sets.set i (.opened t.ring (putItems items held))) ≤ 24
      omega

theorem poolSound_exec (i : Instr) (s : State) (h : PoolSound s) : Leaves (exec i s) PoolSound := by
  have keep {a : Answer} (kept : Leaves a fun t => ItemsKept s.sets t.sets) : Leaves a PoolSound :=
    fun t e => h.keep (kept t e)
  cases hi : formsRegulation i with
  | false => exact keep fun t e => (exec_keepsRegulation hi s t e).items
  | true =>
    cases i with
    | openStation k => exact keep (execOpenStation_itemsKept s k)
    | measure k => exact keep (execMeasure_itemsKept s k)
    | setActuators k => exact keep (execSetActuators_itemsKept s k)
    | stagePut k => exact h.stagePut k
    | stageCommit k => exact keep (execStageCommit_itemsKept s k)
    | _ => cases hi

end Sys2Proof.Machine
end

section
/-! The armed lists (R108): what the invariant says of each list, and the events that release sets from the lists. -/
namespace Sys2Proof.Machine

/-! ## Lists and armed sets -/

/-- The armed list of a context, empty where it holds no station. -/
def Context.listed (x : Context) : List SetId := (x.station.map Station.armed).getD []

/-- The home ring of a context that holds a station. -/
def Context.home (x : Context) : Option WorkRingId := x.station.map Station.homeRing

/-- What an ARMED set is armed with: its owner, station and effective frame. -/
def StagingSet.arming : StagingSet → Option (WorkRingId × StationId × Frame)
  | .free | .opened _ _ => none
  | .armed owner _ id frame => some (owner, id, frame)

@[simp] theorem Context.listed_free : Context.free.listed = [] := rfl
@[simp] theorem Context.listed_opened (c : Station) : (Context.opened c).listed = c.armed := rfl
@[simp] theorem Context.listed_closing (c : Station) : (Context.closing c).listed = c.armed := rfl

theorem Context.listed_of_station {x : Context} {c : Station} (h : x.station = some c) : x.listed = c.armed := by
  rw [Context.listed, h]
  rfl

theorem Context.home_of_station {x : Context} {c : Station} (h : x.station = some c) : x.home = some c.homeRing := by
  rw [Context.home, h]
  rfl

theorem Context.station_of_listed {x : Context} {i : SetId} (h : i ∈ x.listed) :
    ∃ c, x.station = some c ∧ i ∈ c.armed := by
  cases x with
  | free => exact absurd h List.not_mem_nil
  | opened c => exact ⟨c, rfl, h⟩
  | closing c => exact ⟨c, rfl, h⟩

theorem StagingSet.arming_eq_some {x : StagingSet} {owner : WorkRingId} {id : StationId} {frame : Frame} :
    x.arming = some (owner, id, frame) ↔ ∃ items, x = .armed owner items id frame := by
  cases x <;> simp [StagingSet.arming]

theorem StagingSet.arming_openOwnedBy {x : StagingSet} {n : WorkRingId} (h : x.openOwnedBy n = true) :
    x.arming = none := by
  cases x with
  | free | opened => rfl
  | armed => cases h

theorem StagingSet.frame_congr {x y : StagingSet} (h : x.arming = y.arming) : x.frame = y.frame := by
  cases x <;> cases y <;> simp_all [StagingSet.arming, StagingSet.frame]

theorem StagingSet.frame_of_arming {x : StagingSet} {owner : WorkRingId} {id : StationId} {frame : Frame}
    (h : x.arming = some (owner, id, frame)) : x.frame = frame := by
  obtain ⟨items, rfl⟩ := StagingSet.arming_eq_some.mp h
  rfl

/-- A station's armed list as R108 has it, over the sets as they stand. -/
structure ListSound (sets : Vector StagingSet 8) (id : StationId) (x : Context) : Prop where
  short : x.listed.length ≤ 2
  nodup : x.listed.Nodup
  member : ∀ i ∈ x.listed, ∃ owner frame, x.home = some owner ∧ (sets[i]).arming = some (owner, id, frame)
  order : ∀ i j, x.listed = [i, j] →
    (sets[i]).frame ≠ (sets[j]).frame ∧ frameAfter (sets[i]).frame (sets[j]).frame = false

theorem ListSound.of_nil {sets : Vector StagingSet 8} {id : StationId} {x : Context} (h : x.listed = []) :
    ListSound sets id x :=
  ⟨by simp [h], by simp [h], by simp [h], by simp [h]⟩

theorem armedSound_iff (s : State) :
    ArmedSound s ↔ (∀ id : StationId, ListSound s.sets id s.stations[id]) ∧
      ∀ (i : SetId) owner id frame, (s.sets[i]).arming = some (owner, id, frame) → i ∈ (s.stations[id]).listed where
  mp h := by
    refine ⟨fun id => ?_, fun i owner id frame hi => ?_⟩
    · cases hc : (s.stations[id]).station with
      | none =>
        have empty : (s.stations[id]).listed = [] := by rw [Context.listed, hc]; rfl
        exact .of_nil empty
      | some c =>
        obtain ⟨short, nodup⟩ := h.short id c hc
        have list := Context.listed_of_station hc
        refine ⟨list ▸ short, list ▸ nodup, fun i hi => ?_, fun i j e => h.order id c hc i j (list ▸ e)⟩
        obtain ⟨items, frame, e⟩ := h.member id c hc i (list ▸ hi)
        exact ⟨c.homeRing, frame, Context.home_of_station hc, StagingSet.arming_eq_some.mpr ⟨items, e⟩⟩
    · obtain ⟨items, e⟩ := StagingSet.arming_eq_some.mp hi
      obtain ⟨c, hc, hi⟩ := h.listed i owner items id frame e
      exact Context.listed_of_station hc ▸ hi
  mpr := fun ⟨lists, listed⟩ => {
    short := fun id c hc => Context.listed_of_station hc ▸ ⟨(lists id).short, (lists id).nodup⟩
    member := fun id c hc i hi => by
      obtain ⟨owner, frame, hhome, e⟩ := (lists id).member i (Context.listed_of_station hc ▸ hi)
      rw [Context.home_of_station hc] at hhome
      cases hhome
      obtain ⟨items, e⟩ := StagingSet.arming_eq_some.mp e
      exact ⟨items, frame, e⟩
    order := fun id c hc i j e => (lists id).order i j ((Context.listed_of_station hc).trans e)
    listed := fun i owner items id frame e =>
      Context.station_of_listed (listed i owner id frame (StagingSet.arming_eq_some.mpr ⟨items, e⟩)) }

theorem ArmedSound.list {s : State} (h : ArmedSound s) (id : StationId) : ListSound s.sets id s.stations[id] :=
  ((armedSound_iff s).mp h).1 id

theorem ArmedSound.mem_listed {s : State} (h : ArmedSound s) {i : SetId} {owner : WorkRingId} {id : StationId}
    {frame : Frame} (hi : (s.sets[i]).arming = some (owner, id, frame)) : i ∈ (s.stations[id]).listed :=
  ((armedSound_iff s).mp h).2 i owner id frame hi

/-- A set stands in the list of one station alone. -/
theorem ArmedSound.unique {s : State} (h : ArmedSound s) {i : SetId} {id j : StationId}
    (hi : i ∈ (s.stations[id]).listed) (hj : i ∈ (s.stations[j]).listed) : id = j := by
  obtain ⟨_, _, -, e⟩ := (h.list id).member i hi
  obtain ⟨_, _, -, e'⟩ := (h.list j).member i hj
  rw [e] at e'
  cases e'
  rfl

theorem ArmedSound.not_listed {s : State} (h : ArmedSound s) {i : SetId} (hi : (s.sets[i]).arming = none)
    (id : StationId) : i ∉ (s.stations[id]).listed := by
  intro hl
  obtain ⟨_, _, -, e⟩ := (h.list id).member i hl
  rw [hi] at e
  cases e

/-! ## The release of sets from the lists -/

/-- An event that arms no set: those of `gone` are ARMED no more and leave every list, the others stay as they are. -/
structure Releases (gone : List SetId) (s t : State) : Prop where
  freed : ∀ i ∈ gone, (t.sets[i]).arming = none
  kept : ∀ i ∉ gone, (t.sets[i]).arming = (s.sets[i]).arming
  listed : ∀ id : StationId, (t.stations[id]).listed = (s.stations[id]).listed.filter (· ∉ gone)
  home : ∀ id : StationId, (t.stations[id]).listed ≠ [] → (t.stations[id]).home = (s.stations[id]).home

theorem ArmedSound.release {s t : State} (h : ArmedSound s) {gone : List SetId} (e : Releases gone s t) :
    ArmedSound t := by
  refine (armedSound_iff t).mpr ⟨fun id => ?_, fun i owner id frame hi => ?_⟩
  · have list := h.list id
    have left : (t.stations[id]).listed.Sublist (s.stations[id]).listed := e.listed id ▸ List.filter_sublist
    have stays {i : SetId} (hi : i ∈ (t.stations[id]).listed) : i ∉ gone := by
      rw [e.listed id] at hi
      simpa using (List.mem_filter.mp hi).2
    refine ⟨left.length_le.trans list.short, list.nodup.sublist left, fun i hi => ?_, fun i j hij => ?_⟩
    · obtain ⟨owner, frame, hhome, he⟩ := list.member i (left.subset hi)
      exact ⟨owner, frame, e.home id (List.ne_nil_of_mem hi) ▸ hhome, e.kept i (stays hi) ▸ he⟩
    · have whole : (s.stations[id]).listed = [i, j] :=
        (hij ▸ left).eq_of_length_le list.short |>.symm
      have hi : i ∈ (t.stations[id]).listed := hij ▸ List.mem_cons_self
      have hj : j ∈ (t.stations[id]).listed := hij ▸ List.mem_cons_of_mem i List.mem_cons_self
      rw [StagingSet.frame_congr (e.kept i (stays hi)), StagingSet.frame_congr (e.kept j (stays hj))]
      exact list.order i j whole
  · have stays : i ∉ gone := fun hg => by
      rw [e.freed i hg] at hi
      cases hi
    rw [e.listed id]
    exact List.mem_filter.mpr ⟨h.mem_listed (e.kept i stays ▸ hi), by simpa using stays⟩

/-- One context is written, whose list loses the sets released. -/
theorem ArmedSound.release_at {s t : State} (h : ArmedSound s) {id : StationId} {x : Context} {gone : List SetId}
    (stations : t.stations = s.stations.set id x) (own : gone ⊆ (s.stations[id]).listed)
    (freed : ∀ i ∈ gone, (t.sets[i]).arming = none) (kept : ∀ i ∉ gone, (t.sets[i]).arming = (s.sets[i]).arming)
    (listed : x.listed = (s.stations[id]).listed.filter (· ∉ gone))
    (home : x.listed ≠ [] → x.home = (s.stations[id]).home) : ArmedSound t := by
  refine h.release (gone := gone) ⟨freed, kept, fun j => ?_, fun j => ?_⟩
  · rw [stations, get_set]
    split
    · next e => rw [listed, e]
    · next e =>
      refine (List.filter_eq_self.mpr fun i hi => ?_).symm
      have stays : i ∉ gone := fun hg => e (h.unique (own hg) hi)
      simpa using stays
  · rw [stations, get_set]
    split
    · next e => exact fun hx => e ▸ home hx
    · exact fun _ => rfl

/-- An event that leaves every set armed as it was. -/
def ArmingKept (sets after : Vector StagingSet 8) : Prop := ∀ i : SetId, (after[i]).arming = (sets[i]).arming

theorem ArmingKept.refl (sets : Vector StagingSet 8) : ArmingKept sets sets := fun _ => rfl

theorem ArmingKept.of_eq {sets after : Vector StagingSet 8} (h : after = sets) : ArmingKept sets after := h ▸ .refl _

theorem ArmingKept.set {sets : Vector StagingSet 8} {i : SetId} {x : StagingSet} (h : x.arming = (sets[i]).arming) :
    ArmingKept sets (sets.set i x) := by
  intro j
  rw [get_set]
  split
  · next e => exact e ▸ h
  · rfl

/-- A set that is not ARMED is written, and is not ARMED after it. -/
theorem ArmingKept.set_none {sets : Vector StagingSet 8} {i : SetId} {x : StagingSet} (h : (sets[i]).arming = none)
    (hx : x.arming = none) : ArmingKept sets (sets.set i x) := .set (hx.trans h.symm)

theorem ArmedSound.of_stations {s t : State} (h : ArmedSound s) (stations : t.stations = s.stations)
    (kept : ArmingKept s.sets t.sets) : ArmedSound t :=
  h.release (gone := []) ⟨by simp, fun i _ => kept i, by simp [stations], by simp [stations]⟩

/-- One context is written that keeps its list and, where the list is not empty, its home ring. -/
theorem ArmedSound.of_set {s t : State} (h : ArmedSound s) {id : StationId} {x : Context}
    (stations : t.stations = s.stations.set id x) (kept : ArmingKept s.sets t.sets)
    (listed : x.listed = (s.stations[id]).listed) (home : x.listed ≠ [] → x.home = (s.stations[id]).home) :
    ArmedSound t :=
  h.release_at (gone := []) stations (by simp) (by simp) (fun i _ => kept i) (by simp [listed]) home

end Sys2Proof.Machine
end

section
/-! The commands that leave every station context as it is leave every set armed as it was (R108). -/
namespace Sys2Proof.Machine

/-! ## Shared operations -/

section setFrames
variable {s t : State}

theorem State.endDone_sets {kind : TransferKind} {e : Nat} (h : s.endDone kind e = some t) : t.sets = s.sets := by
  obtain ⟨x, -, -, m, rfl, -⟩ := State.endDone_eq_some h
  rfl

theorem State.endFailed_sets {kind : TransferKind} {e : Nat} (h : s.endFailed kind e = some t) : t.sets = s.sets := by
  obtain ⟨x, -, m, d, rfl, -⟩ := State.endFailed_eq_some h
  rfl

variable (s)

@[simp] theorem State.halt_sets (why : HaltCause) : (s.halt why).sets = s.sets := by
  by_cases h : Halts s
  · obtain ⟨m, d, e, -⟩ := State.halt_spec h why
    rw [e]
    rfl
  · rw [State.halt_of_not h]

@[simp] theorem State.writeBack_sets (place : Place) (index : RingIndex) : (s.writeBack place index).sets = s.sets := rfl

@[simp] theorem State.advanceWritten_sets (n : WorkRingId) : (s.advanceWritten n).sets = s.sets := by
  unfold State.advanceWritten
  split <;> rfl

@[simp] theorem State.holdRecord_sets (k : SlotId) (t : Task) (r : Block64) : (s.holdRecord k t r).sets = s.sets := by
  unfold State.holdRecord
  split <;> rfl

@[simp] theorem State.completeStartUp_sets (u : Setup) : (s.completeStartUp u).sets = s.sets := by
  rw [State.completeStartUp, apply_ite State.sets]
  exact ite_self _

@[simp] theorem State.announce_sets (n : ResultRingId) (due : ResultRing → Bool) : (s.announce n due).sets = s.sets := by
  unfold State.announce
  split
  · rfl
  · split <;> rfl

@[simp] theorem State.announceAll_sets : s.announceAll.sets = s.sets :=
  foldl_keeps (P := fun t => t.sets = s.sets) (fun t n h => (t.announce_sets n _).trans h) _ rfl

@[simp] theorem State.recordProduced_sets (n : ResultRingId) : (s.recordProduced n).sets = s.sets := by
  unfold State.recordProduced
  split
  · rfl
  · simp

@[simp] theorem State.freeSlot_sets (k : SlotId) : (s.freeSlot k).sets = s.sets := by
  unfold State.freeSlot
  split
  · rfl
  · dsimp only
    split <;> rfl

@[simp] theorem State.afterLastTask_sets : s.afterLastTask.sets = s.sets := by
  unfold State.afterLastTask
  split
  · dsimp only
    split
    · exact s.announceAll_sets
    · exact s.announceAll_sets
  · rfl

@[simp] theorem State.beginStartUp_sets : s.beginStartUp.sets = s.sets := by
  unfold State.beginStartUp
  dsimp only
  split
  · rfl
  · rw [State.halt_sets]

@[simp] theorem State.beginQuiesce_sets : s.beginQuiesce.sets = s.sets := by
  unfold State.beginQuiesce
  split <;> rfl

@[simp] theorem State.postWork_sets (value : Register) : (s.postWork value).sets = s.sets := by
  unfold State.postWork
  split
  · rfl
  · split
    · rfl
    · split <;> rfl

/-- The end of a delete drain frees OPEN sets only (R138). -/
theorem State.endDeleteDrain_arming (k : SlotId) : ArmingKept s.sets (s.endDeleteDrain k).sets := by
  rcases s.endDeleteDrain_cases k with e | ⟨t, r, n, w, -, -, -, -, e⟩
  · exact .of_eq (congrArg State.sets e)
  · intro i
    rw [e]
    dsimp only
    rw [get_mapBank]
    split
    · next h => exact (StagingSet.arming_openOwnedBy h).symm
    · rfl

end setFrames

/-! ## The ends of transfers and the takes -/

section ends
variable (s : State)

theorem execRecordReadDone_sets (k : SlotId) (r : Block64) (e : Nat) :
    Leaves (execRecordReadDone k r s e) fun t => t.sets = s.sets := by
  unfold execRecordReadDone
  refine leaves_next ?_
  split
  · rfl
  · split
    · split
      · rfl
      · next hs => simpa using State.endDone_sets hs
    all_goals rfl

theorem execRecordReadFault_sets (k : SlotId) (e : Nat) :
    Leaves (execRecordReadFault k s e) fun t => t.sets = s.sets := by
  unfold execRecordReadFault
  refine leaves_next ?_
  split
  · rfl
  · split
    · split
      · rfl
      · next hs =>
        rw [State.advanceWritten_sets]
        split <;> exact (State.endFailed_sets hs :)
    all_goals rfl

theorem execGridReadDone_sets (k : SlotId) (data : List Byte) (e : Nat) :
    Leaves (execGridReadDone k data s e) fun t => t.sets = s.sets := by
  unfold execGridReadDone
  refine leaves_next ?_
  split
  · rfl
  · split
    · split
      · rfl
      · next hs =>
        split
        · exact (State.endDone_sets hs :)
        · rfl
    all_goals rfl

theorem execGridReadFault_sets (k : SlotId) (e : Nat) :
    Leaves (execGridReadFault k s e) fun t => t.sets = s.sets := by
  unfold execGridReadFault
  refine leaves_next ?_
  split
  · rfl
  · split
    · split
      · rfl
      · next hs => exact (State.endFailed_sets hs :)
    all_goals rfl

theorem execSnapshotWriteDone_sets (k : SlotId) (e : Nat) :
    Leaves (execSnapshotWriteDone k s e) fun t => t.sets = s.sets := by
  unfold execSnapshotWriteDone
  refine leaves_next ?_
  split
  · rfl
  · next hs => exact (State.endDone_sets hs :)

theorem execSnapshotWriteFault_sets (k : SlotId) (e : Nat) :
    Leaves (execSnapshotWriteFault k s e) fun t => t.sets = s.sets := by
  unfold execSnapshotWriteFault
  refine leaves_next ?_
  split
  · rfl
  · next hs => exact (State.endFailed_sets hs :)

theorem execResultWrite_sets (k : SlotId) : Leaves (execResultWrite k s) fun t => t.sets = s.sets := by
  unfold execResultWrite
  refine leaves_next ?_
  split
  · rfl
  · split
    · split
      · rfl
      · split
        · rfl
        · split <;> rfl
    all_goals rfl

theorem execResultWriteFault_sets (n : ResultRingId) (i : RingIndex) (e : Nat) :
    Leaves (execResultWriteFault n i s e) fun t => t.sets = s.sets := by
  unfold execResultWriteFault
  refine leaves_next ?_
  split
  · rfl
  · split
    · rfl
    · next hs => rw [State.halt_sets, State.endFailed_sets hs]

theorem execWritebackDone_sets (place : Place) (e : Nat) :
    Leaves (execWritebackDone place s e) fun t => t.sets = s.sets := by
  unfold execWritebackDone
  refine leaves_next ?_
  split
  · rfl
  · next hs => exact (State.endDone_sets hs :)

theorem execWritebackFault_sets (place : Place) (e : Nat) :
    Leaves (execWritebackFault place s e) fun t => t.sets = s.sets := by
  unfold execWritebackFault
  refine leaves_next ?_
  split
  · rfl
  · next hs => rw [State.halt_sets, State.endFailed_sets hs]

theorem execSetupReadDone_sets (block : Block64) (e : Nat) :
    Leaves (execSetupReadDone block s e) fun t => t.sets = s.sets := by
  unfold execSetupReadDone
  refine leaves_next ?_
  split
  · next hs =>
    split
    · exact (State.endDone_sets hs :)
    · rw [State.halt_sets, State.endDone_sets hs]
  · rfl

theorem execSetupReadFault_sets (e : Nat) : Leaves (execSetupReadFault s e) fun t => t.sets = s.sets := by
  unfold execSetupReadFault
  refine leaves_next ?_
  split
  · rfl
  · next hs => rw [State.halt_sets, State.endFailed_sets hs]

theorem execWritebackZeroingDone_sets (e : Nat) : Leaves (execWritebackZeroingDone s e) fun t => t.sets = s.sets := by
  unfold execWritebackZeroingDone
  refine leaves_next ?_
  split
  · next hs _ => rw [State.completeStartUp_sets, State.endDone_sets hs]
  · rfl

theorem execWritebackZeroingFault_sets (e : Nat) : Leaves (execWritebackZeroingFault s e) fun t => t.sets = s.sets := by
  unfold execWritebackZeroingFault
  refine leaves_next ?_
  split
  · rfl
  · next hs => rw [State.halt_sets, State.endFailed_sets hs]

theorem execTake_sets : Leaves (execTake s) fun t => t.sets = s.sets := by
  unfold execTake
  refine leaves_next ?_
  split
  · split
    · rfl
    · split <;> rfl
  · rfl

/-! ## Executions -/

theorem execBadKind_sets (k : SlotId) : Leaves (execBadKind k s) fun t => t.sets = s.sets := by
  unfold execBadKind
  refine leaves_next ?_
  split
  · split <;> rfl
  · rfl

theorem execRecordUnreadable_sets (k : SlotId) : Leaves (execRecordUnreadable k s) fun t => t.sets = s.sets := by
  unfold execRecordUnreadable
  refine leaves_next ?_
  split <;> rfl

theorem execDeleteWorkRing_arming (k : SlotId) :
    Leaves (execDeleteWorkRing k s) fun t => ArmingKept s.sets t.sets := by
  refine executing_leaves (ArmingKept.refl s.sets) fun t r => ?_
  split
  · exact .refl _
  · exact State.endDeleteDrain_arming _ k

theorem lowestFreeSet_free {sets : Vector StagingSet 8} {i : SetId} (h : lowestFreeSet sets = some i) :
    sets[i] = .free := by
  have := List.find?_some h
  simpa using this

theorem execStageOpen_arming (k : SlotId) : Leaves (execStageOpen k s) fun t => ArmingKept s.sets t.sets := by
  refine executing_leaves (ArmingKept.refl s.sets) fun t r => ?_
  split
  · exact .refl _
  · next i hi => exact .set_none (congrArg StagingSet.arming (lowestFreeSet_free hi)) rfl

theorem execStagePut_arming (k : SlotId) : Leaves (execStagePut k s) fun t => ArmingKept s.sets t.sets := by
  refine executing_leaves (ArmingKept.refl s.sets) fun t r => ?_
  split
  · exact .refl _
  · next i new hp =>
    obtain ⟨items, held, hset, -⟩ := State.putCheck_ok hp
    exact .set_none (congrArg StagingSet.arming hset) rfl

end ends

theorem exec_arming {i : Instr} (h : leavesStations i = true) (s : State) :
    Leaves (exec i s) fun t => ArmingKept s.sets t.sets := by
  have same {a : Answer} (ha : Leaves a fun t => t.sets = s.sets) : Leaves a fun t => ArmingKept s.sets t.sets :=
    fun t e => .of_eq (ha t e)
  have answered {k : SlotId} {kind : Nat} {act : Task → Block64 → State} (hact : ∀ t r, (act t r).sets = s.sets) :
      Leaves (.next (s.executing k kind act)) fun t => ArmingKept s.sets t.sets :=
    same (executing_leaves rfl hact)
  cases i with
  | queryDevice k => exact answered fun t r => by split <;> rfl
  | createWorkRing k => exact answered fun t r => by split <;> rfl
  | deleteWorkRing k => exact execDeleteWorkRing_arming s k
  | createResultRing k => exact answered fun t r => by split <;> rfl
  | deleteResultRing k => exact answered fun t r => by split <;> rfl
  | readStation k => exact answered fun t r => by split <;> rfl
  | stageOpen k => exact execStageOpen_arming s k
  | stagePut k => exact execStagePut_arming s k
  | badKind k => exact same (execBadKind_sets s k)
  | recordUnreadable k => exact same (execRecordUnreadable_sets s k)
  | causeClear v | maskWrite v =>
    refine same (leaves_next ?_)
    unfold State.reached
    split <;> rfl
  | linkDown | linkUp | completionTimeout _ _ | configurationSpaceWrite _ => exact leaves_next (.refl _)
  | take => exact same (execTake_sets s)
  | recordReadDone k r e => exact same (execRecordReadDone_sets s k r e)
  | recordReadFault k e => exact same (execRecordReadFault_sets s k e)
  | gridReadDone k data e => exact same (execGridReadDone_sets s k data e)
  | gridReadFault k e => exact same (execGridReadFault_sets s k e)
  | snapshotWriteDone k e => exact same (execSnapshotWriteDone_sets s k e)
  | snapshotWriteFault k e => exact same (execSnapshotWriteFault_sets s k e)
  | resultWrite k => exact same (execResultWrite_sets s k)
  | resultWriteFault n i e => exact same (execResultWriteFault_sets s n i e)
  | writebackFault place e => exact same (execWritebackFault_sets s place e)
  | setupReadDone block e => exact same (execSetupReadDone_sets s block e)
  | setupReadFault e => exact same (execSetupReadFault_sets s e)
  | writebackZeroingDone e => exact same (execWritebackZeroingDone_sets s e)
  | writebackZeroingFault e => exact same (execWritebackZeroingFault_sets s e)
  | deleteDrainEnd k => exact leaves_next (s.endDeleteDrain_arming k)
  | writebackDone place e => exact same (execWritebackDone_sets s place e)
  | _ => cases h

end Sys2Proof.Machine
end

section
/-! A MEASURE and the armed list (R110 to R113): it releases the sets that it lands, and changes the list in no other
way. -/
namespace Sys2Proof.Machine

/-- The home ring of a station with its armed list. -/
def Station.roster (c : Station) : WorkRingId × List SetId := (c.homeRing, c.armed)

/-! ## What leaves the roster -/

section roster
variable (c : Station) (f : Frame)

@[simp] theorem Station.raise_roster (k : Condition) : (c.raise k).roster = c.roster := rfl

@[simp] theorem Station.raiseAll_roster (ks : List Condition) : (c.raiseAll ks).roster = c.roster := by
  induction ks generalizing c with
  | nil => rfl
  | cons k rest ih => exact ih (c.raise k)

@[simp] theorem Station.push_roster (x : Frame) (e : Entry) : (c.push x e).roster = c.roster := by
  unfold Station.push
  split <;> rfl

@[simp] theorem gapStage_roster : (gapStage f c).station.roster = c.roster := by
  unfold gapStage
  split
  · rfl
  · split
    · rfl
    · split <;> rfl

@[simp] theorem enter_roster (exit : LoopState) : (enter exit c).roster = c.roster := by
  unfold enter
  split
  · rfl
  · rw [Station.raiseAll_roster]
    rfl

@[simp] theorem moveTo_roster (product : Nat) : (moveTo f product c).station.roster = c.roster := by
  unfold moveTo
  dsimp only
  split
  · rfl
  · simp

@[simp] theorem loopStage_roster (veto : Bool) (mc : Nat) : (loopStage f veto mc c).station.roster = c.roster := by
  unfold loopStage
  split <;> simp

theorem evaluateLoop_roster (m : Metered) (mean mc : Nat) (sets : Vector StagingSet 8) :
    (evaluateLoop f m mean mc c sets).station.roster = c.roster := by
  unfold evaluateLoop
  split
  · rfl
  · dsimp only
    split <;> exact loopStage_roster c f m.veto mc

theorem evaluateGrid_roster (g : GridSource) (sets : Vector StagingSet 8) :
    (evaluateGrid f g c sets).station.roster = c.roster := by
  unfold evaluateGrid
  dsimp only
  split
  · rfl
  · split
    · rfl
    · rw [evaluateLoop_roster]
      rfl

theorem landItems_roster (items : List Item) : (landItems items c).roster = c.roster := by
  unfold landItems
  dsimp only
  split <;> rfl

theorem Station.thaw_roster : c.thaw.roster = c.roster := by
  unfold Station.thaw
  split <;> rfl

theorem Station.setActuators_roster (i g l : Nat) : (c.setActuators f i g l).roster = c.roster := by
  unfold Station.setActuators
  dsimp only
  split
  · rfl
  · rw [enter_roster]
    rfl

end roster

/-! ## The sets that land -/

/-- Of the sets of a list the station's list loses those of `gone`, which become FREE; every other set stays. -/
structure Lands (gone : List SetId) (c d : Station) (sets after : Vector StagingSet 8) : Prop where
  own : gone ⊆ c.armed
  roster : d.roster = (c.homeRing, c.armed.filter (· ∉ gone))
  freed : ∀ i ∈ gone, after[i] = .free
  kept : ∀ i ∉ gone, after[i] = sets[i]

theorem Lands.of_none {c d : Station} {sets : Vector StagingSet 8} (h : d.roster = c.roster) :
    Lands [] c d sets sets :=
  ⟨List.nil_subset _, by simpa [Station.roster] using h, by simp, fun _ _ => rfl⟩

theorem Lands.cons {gone : List SetId} {a : SetId} {c d u : Station} {sets after : Vector StagingSet 8}
    (hn : c.armed.Nodup) (ha : a ∈ c.armed) (e : Lands gone d u (sets.set a .free) after)
    (hd : d.roster = (c.homeRing, c.armed.erase a)) : Lands (a :: gone) c u sets after := by
  obtain ⟨home, list⟩ := Prod.mk.inj hd
  have erased (i : SetId) : (!decide (i ∈ gone) && i != a) = decide (i ∉ a :: gone) := by
    by_cases h : i = a <;> simp [h]
  refine ⟨List.cons_subset.mpr ⟨ha, fun i hi => List.mem_of_mem_erase (list ▸ e.own hi)⟩, ?_, fun i hi => ?_,
    fun i hi => ?_⟩
  · rw [e.roster, home, list, hn.erase_eq_filter, List.filter_filter]
    exact Prod.ext rfl (List.filter_congr fun i _ => by simpa using erased i)
  · by_cases hg : i ∈ gone
    · exact e.freed i hg
    · rw [e.kept i hg, (List.mem_cons.mp hi).resolve_right hg, get_set, if_pos rfl]
  · obtain ⟨hia, hg⟩ := List.ne_and_not_mem_of_not_mem_cons hi
    rw [e.kept i hg, get_set, if_neg (Ne.symm hia)]

theorem applySets_lands (f : Frame) (ids : List SetId) {c : Station} (hn : c.armed.Nodup) (hids : ids ⊆ c.armed)
    (hd : ids.Nodup) (sets : Vector StagingSet 8) :
    ∃ gone, Lands gone c (applySets f ids c sets).1 sets (applySets f ids c sets).2 := by
  induction ids generalizing c sets with
  | nil => exact ⟨[], .of_none rfl⟩
  | cons a rest ih =>
    obtain ⟨ha, hrest⟩ := List.cons_subset.mp hids
    obtain ⟨hnot, hd⟩ := List.nodup_cons.mp hd
    unfold applySets
    split
    · next items _ _ _ =>
      split
      · exact ih hn hrest hd sets
      · have left : rest ⊆ c.armed.erase a := fun i hi =>
          (List.mem_erase_of_ne (ne_of_mem_of_not_mem hi hnot)).mpr (hrest hi)
        obtain ⟨gone, e⟩ := ih (c := { landItems items c with armed := c.armed.erase a }) (hn.erase a) left hd
          (sets.set a .free)
        have home : (landItems items c).homeRing = c.homeRing := congrArg Prod.fst (landItems_roster c items)
        exact ⟨a :: gone, .cons hn ha e (Prod.ext home rfl)⟩
    · exact ih hn hrest hd sets
    · exact ih hn hrest hd sets

/-- A MEASURE releases the sets it lands and leaves the others (R110). -/
theorem evaluate_lands (f : Frame) (g : GridSource) {c : Station} (hn : c.armed.Nodup) (sets : Vector StagingSet 8) :
    ∃ gone, Lands gone c (evaluate f g c sets).station sets (evaluate f g c sets).sets := by
  unfold evaluate
  split
  · exact ⟨[], .of_none rfl⟩
  · split
    · exact ⟨[], .of_none rfl⟩
    · obtain ⟨home, list⟩ := Prod.mk.inj (gapStage_roster c f)
      have hn' : (gapStage f c).station.armed.Nodup := list ▸ hn
      obtain ⟨gone, e⟩ := applySets_lands f (gapStage f c).station.armed hn' (List.Subset.refl _) hn' sets
      refine ⟨gone, ⟨list ▸ e.own, ?_, ?_, ?_⟩⟩
      · dsimp only
        rw [evaluateGrid_roster, Station.raiseAll_roster]
        exact e.roster.trans (by rw [home, list])
      · dsimp only
        rw [evaluateGrid_sets]
        exact e.freed
      · dsimp only
        rw [evaluateGrid_sets]
        exact e.kept

end Sys2Proof.Machine
end

section
/-! The armed lists stay sound (R108): a commit arms a set into its place, a discard, a MEASURE, a close's end and a
teardown release sets, and every other event leaves the lists. -/
namespace Sys2Proof.Machine

/-! ## Arming (R106, R108) -/

/-- Of two distinct frames not both are after the other (R77). -/
theorem frameAfter_asymm {a b : Frame} (h : frameAfter a b = true) : frameAfter b a = false := by
  simp only [frameAfter, Bool.and_eq_true, Bool.and_eq_false_iff, decide_eq_true_eq, decide_eq_false_iff_not] at *
  bv_omega

theorem ListSound.congr {sets after : Vector StagingSet 8} {id : StationId} {x : Context} (h : ListSound sets id x)
    (same : ∀ i ∈ x.listed, (after[i]).arming = (sets[i]).arming) : ListSound after id x where
  short := h.short
  nodup := h.nodup
  member i hi := same i hi ▸ h.member i hi
  order i j e := by
    rw [StagingSet.frame_congr (same i (e ▸ List.mem_cons_self)),
      StagingSet.frame_congr (same j (e ▸ List.mem_cons_of_mem i List.mem_cons_self))]
    exact h.order i j e

theorem armPosition_le (sets : Vector StagingSet 8) (e : Frame) (l : List SetId) : armPosition sets e l ≤ l.length := by
  cases l with
  | nil => exact le_rfl
  | cons a rest =>
    simp only [armPosition]
    split <;> simp

/-- The list with the set armed holds what it held and the set. -/
theorem perm_armed (sets : Vector StagingSet 8) (e : Frame) (l : List SetId) (i : SetId) :
    (l.insertIdx (armPosition sets e l) i).Perm (i :: l) :=
  List.perm_insertIdx i l (armPosition_le sets e l)

section arm
variable {s t : State} {id : StationId} {c : Station} {i : SetId} {items : List Item} {e : Frame}

/-- A set armed beside one of another frame stands before a later and after an earlier one. -/
theorem armed_order {l : List SetId} {sets after : Vector StagingSet 8} (short : l.length < 2)
    (fresh : ∀ a ∈ l, (sets[a]).frame ≠ e) (armed : (after[i]).frame = e)
    (kept : ∀ a ∈ l, (after[a]).frame = (sets[a]).frame) (x y : SetId)
    (h : l.insertIdx (armPosition sets e l) i = [x, y]) :
    (after[x]).frame ≠ (after[y]).frame ∧ frameAfter (after[x]).frame (after[y]).frame = false := by
  match l with
  | [] => cases h
  | [a] =>
    have ha := List.mem_singleton.mpr (rfl : a = a)
    by_cases before : frameAfter (sets[a]).frame e = true
    · rw [armPosition, if_pos before] at h
      obtain ⟨rfl, rfl⟩ : i = x ∧ a = y := by simpa using h
      rw [armed, kept a ha]
      exact ⟨(fresh a ha).symm, frameAfter_asymm before⟩
    · rw [armPosition, if_neg before] at h
      obtain ⟨rfl, rfl⟩ : a = x ∧ i = y := by simpa using h
      rw [armed, kept a ha]
      exact ⟨fresh a ha, Bool.eq_false_iff.mpr before⟩
  | _ :: _ :: rest => simp at short

/-- The list of the station stays sound where a set not in it is armed, of another frame than any listed. -/
theorem ListSound.arm {sets after : Vector StagingSet 8} (list : ListSound sets id (.opened c)) (new : i ∉ c.armed)
    (short : c.armed.length < 2) (fresh : ∀ a ∈ c.armed, (sets[a]).frame ≠ e)
    (armed : (after[i]).arming = some (c.homeRing, id, e))
    (kept : ∀ a ∈ c.armed, (after[a]).arming = (sets[a]).arming) :
    ListSound after id (.opened { c with armed := c.armed.insertIdx (armPosition sets e c.armed) i }) where
  short := by
    rw [Context.listed_opened, (perm_armed sets e c.armed i).length_eq]
    exact short
  nodup := (perm_armed sets e c.armed i).nodup_iff.mpr (List.nodup_cons.mpr ⟨new, list.nodup⟩)
  member a ha := by
    rcases List.mem_cons.mp ((perm_armed sets e c.armed i).mem_iff.mp ha) with rfl | ha
    · exact ⟨c.homeRing, e, rfl, armed⟩
    · rw [kept a ha]
      exact list.member a ha
  order := armed_order short fresh (StagingSet.frame_of_arming armed) fun a ha => StagingSet.frame_congr (kept a ha)

theorem ArmedSound.arm (h : ArmedSound s) (hc : s.stations[id] = .opened c) (hi : (s.sets[i]).arming = none)
    (short : c.armed.length < 2) (fresh : ∀ a ∈ c.armed, (s.sets[a]).frame ≠ e)
    (stations : t.stations = s.stations.set id
      (.opened { c with armed := c.armed.insertIdx (armPosition s.sets e c.armed) i }))
    (sets : t.sets = s.sets.set i (.armed c.homeRing items id e)) : ArmedSound t := by
  have armed : (t.sets[i]).arming = some (c.homeRing, id, e) := by rw [sets, get_set, if_pos rfl]; rfl
  have kept {a : SetId} (ha : a ≠ i) : (t.sets[a]).arming = (s.sets[a]).arming := by
    rw [sets, get_set, if_neg (Ne.symm ha)]
  have other {j : StationId} {a : SetId} (ha : a ∈ (s.stations[j]).listed) : a ≠ i :=
    fun hai => h.not_listed hi j (hai ▸ ha)
  have list := h.list id
  rw [hc] at list
  have old {a : SetId} (ha : a ∈ c.armed) : a ≠ i := other (j := id) (by rw [hc]; exact ha)
  refine (armedSound_iff t).mpr ⟨fun j => ?_, fun a owner j frame ha => ?_⟩
  · rw [stations, get_set]
    split
    · next hj =>
      subst hj
      exact list.arm (fun hi => old hi rfl) short fresh armed fun a ha => kept (old ha)
    · exact (h.list j).congr fun a ha => kept (other ha)
  · have listed {a : SetId} (ha : a ∈ i :: c.armed) : a ∈ (t.stations[id]).listed := by
      rw [stations, get_set, if_pos rfl]
      exact (perm_armed s.sets e c.armed i).mem_iff.mpr ha
    by_cases hai : a = i
    · rw [hai, armed] at ha
      cases ha
      exact hai ▸ listed List.mem_cons_self
    · have before := h.mem_listed (kept hai ▸ ha)
      by_cases hj : j = id
      · subst hj
        rw [hc] at before
        exact listed (List.mem_cons_of_mem i before)
      · rw [stations, get_set, if_neg (Ne.symm hj)]
        exact before

end arm

/-! ## Events that leave the lists -/

theorem Context.listed_update {x : Context} {f : Station → Station} (hf : ∀ c, (f c).roster = c.roster) :
    (x.update f).listed = x.listed := by
  cases x with
  | free => rfl
  | opened c | closing c => exact congrArg Prod.snd (hf c)

theorem Context.home_update {x : Context} {f : Station → Station} (hf : ∀ c, (f c).roster = c.roster) :
    (x.update f).home = x.home := by
  cases x with
  | free => rfl
  | opened c | closing c => exact congrArg (some ∘ Prod.fst) (hf c)

/-- The station of an OPEN context is written with its roster kept. -/
theorem ArmedSound.of_opened {s t : State} (h : ArmedSound s) {id : StationId} {c d : Station}
    (hc : s.stations[id] = .opened c) (stations : t.stations = s.stations.set id (.opened d))
    (kept : ArmingKept s.sets t.sets) (roster : d.roster = c.roster) : ArmedSound t := by
  obtain ⟨home, list⟩ := Prod.mk.inj roster
  exact h.of_set stations kept (by rw [hc]; exact list) (fun _ => by rw [hc]; exact congrArg some home)

theorem ArmedSound.emitNotice {s : State} (h : ArmedSound s) (id : StationId) : ArmedSound (s.emitNotice id) := by
  rcases s.emitNotice_cases id with ⟨e, -⟩ | ⟨c, q, hc, -, -, -, -, e⟩
  · rw [e]
    exact h
  · rw [e]
    exact h.of_opened hc rfl (.refl _) rfl

theorem ArmedSound.offerSlots {s : State} (h : ArmedSound s) (n : ResultRingId) : ArmedSound (s.offerSlots n) := by
  refine foldl_keeps (fun s id h => ?_) _ h
  split
  · exact h.emitNotice id
  · exact h

theorem ArmedSound.resume {s : State} (h : ArmedSound s) : ArmedSound s.resume :=
  foldl_keeps (fun _ n h => h.offerSlots n) _ (h.of_stations rfl (.refl _))

theorem ArmedSound.noticeWritten {s : State} (h : ArmedSound s) (id : StationId) (n : ResultRingId) :
    ArmedSound (s.noticeWritten id n) := by
  have marked : ArmedSound
      (s.setStation id (s.stations[id].update fun c => { c with noticeInFlight := s.noticePending id })) :=
    h.of_set rfl (.refl _) (Context.listed_update fun _ => rfl) fun _ => Context.home_update fun _ => rfl
  unfold State.noticeWritten
  dsimp only
  split
  · exact marked.of_stations (State.announce_stations _ n _) (.of_eq (State.announce_sets _ n _))
  · exact marked

theorem ArmedSound.homeCommand {s : State} (h : ArmedSound s) (k : SlotId) (kind : Nat) (fields : Block64 → Bool)
    {act : Block64 → Station → Station} (hact : ∀ r c, (act r c).roster = c.roster) :
    Leaves (.next (s.homeCommand k kind fields act)) ArmedSound := by
  refine executing_leaves h fun t r => ?_
  split
  · exact h.of_stations rfl (.refl _)
  · next id c hc => exact h.of_opened (State.homeCheck_opened hc) rfl (.refl _) (hact r c)

/-! ## The end of a close, and teardown (R10, R114, R169) -/

theorem ArmedSound.endCloseDrain {s : State} (h : ArmedSound s) (k : SlotId) : ArmedSound (s.endCloseDrain k) := by
  rcases s.endCloseDrain_cases k with e | ⟨t, r, id, c, -, -, hc, -, e⟩
  · rw [e]
    exact h
  · rw [e]
    have listed : (s.stations[id]).listed = c.armed := by rw [hc]; rfl
    refine h.release_at (gone := c.armed) (id := id) (x := .free) rfl (listed ▸ List.Subset.refl _) (fun i hi => ?_)
      (fun i hi => ?_) ?_ fun hx => absurd rfl hx
    · rw [get_freeSets, if_pos hi]
      rfl
    · rw [get_freeSets, if_neg hi]
    · rw [listed, eq_comm, Context.listed_free, List.filter_eq_nil_iff]
      simp

theorem ArmedSound.endDeleteDrain {s : State} (h : ArmedSound s) (k : SlotId) : ArmedSound (s.endDeleteDrain k) :=
  h.of_stations (s.endDeleteDrain_stations k) (s.endDeleteDrain_arming k)

theorem ArmedSound.settleDrains {s : State} (h : ArmedSound s) : ArmedSound s.settleDrains :=
  foldl_keeps (fun _ k h => (h.endCloseDrain k).endDeleteDrain k) _ h

theorem ArmedSound.teardown (s : State) : ArmedSound s.teardown := by
  obtain ⟨m, d, e, -⟩ := s.teardown_spec
  rw [e]
  refine (armedSound_iff _).mpr ⟨fun id => .of_nil ?_, fun i owner id frame hi => ?_⟩
  · rw [show (tornDown s m d).stations[id] = .free by simp [tornDown]]
    rfl
  · rw [show (tornDown s m d).sets[i] = .free by simp [tornDown]] at hi
    cases hi

/-! ## The register window -/

theorem ArmedSound.enabledWrite {s : State} (h : ArmedSound s) (before : Bool) : ArmedSound (s.enabledWrite before) := by
  unfold State.enabledWrite
  split
  · exact h.of_stations s.beginStartUp_stations (.of_eq s.beginStartUp_sets)
  · split
    · exact h.of_stations s.beginQuiesce_stations (.of_eq s.beginQuiesce_sets)
    · exact h
  · split
    · exact h.resume
    · exact h
  · split
    · exact h.resume
    · exact h
  · exact h
  · exact h

theorem ArmedSound.writeCtrl {s : State} (h : ArmedSound s) (value : Register) : ArmedSound (s.writeCtrl value) := by
  have stored : ArmedSound { s with quiesceBit := ctrlQuiesce value } := h.of_stations rfl (.refl _)
  unfold State.writeCtrl
  split
  · exact (ArmedSound.teardown s).of_stations rfl (.refl _)
  · dsimp only
    split
    · exact stored.enabledWrite _
    · split
      · exact stored
      · exact .teardown _

theorem ArmedSound.releaseResult {s : State} (h : ArmedSound s) (value : Register) :
    ArmedSound (s.releaseResult value) := by
  have rejected : ∀ why, ArmedSound (s.reject value why) := fun why => h.of_stations rfl (.refl _)
  unfold State.releaseResult
  split
  · exact rejected _
  · split
    · exact rejected _
    · split
      · exact rejected _
      · split
        · exact h
        · exact (h.of_stations (State.setResultRing_stations ..) (.of_eq (State.setResultRing_sets ..))).offerSlots _

theorem ArmedSound.writePost {s : State} (h : ArmedSound s) (value : Register) : ArmedSound (s.writePost value) := by
  unfold State.writePost
  split
  · exact h.of_stations (s.postWork_stations value) (.of_eq (s.postWork_sets value))
  · split
    · exact h.releaseResult value
    · exact h.of_stations rfl (.refl _)

theorem ArmedSound.writeRegister {s : State} (h : ArmedSound s) (offset : BitVec 12) (value : Register) :
    ArmedSound (s.writeRegister offset value) := by
  unfold State.writeRegister
  split
  · exact h.writeCtrl value
  · exact h.of_stations rfl (.refl _)
  · exact h.of_stations rfl (.refl _)
  · exact h.writePost value
  · exact h.of_stations rfl (.refl _)
  · exact h.of_stations rfl (.refl _)
  · exact h

theorem ArmedSound.reached {s : State} (h : ArmedSound s) {act : State → State} (hact : ArmedSound (act s)) :
    Leaves (.next (s.reached act)) ArmedSound := by
  refine leaves_next ?_
  unfold State.reached
  split
  · exact hact
  · exact h

/-! ## The end of a result write -/

theorem ArmedSound.resultWriteDone {s : State} (h : ArmedSound s) (n : ResultRingId) (i : RingIndex) (e : Nat) :
    Leaves (execResultWriteDone n i s e) ArmedSound := by
  unfold execResultWriteDone
  refine leaves_next ?_
  split
  · exact h
  · split
    · exact h
    · next s' hs =>
      have produced : ArmedSound (s'.recordProduced n) :=
        h.of_stations (by rw [State.recordProduced_stations, State.endDone_stations hs])
          (.of_eq (by rw [State.recordProduced_sets, State.endDone_sets hs]))
      dsimp only
      split
      · exact .settleDrains (produced.of_stations (by simp) (.of_eq (by simp)))
      · exact .settleDrains (produced.noticeWritten _ n)
      · exact produced

/-! ## Executions -/

theorem ArmedSound.measure {s : State} (h : ArmedSound s) (k : SlotId) : Leaves (execMeasure k s) ArmedSound := by
  refine executing_leaves h fun t r => ?_
  split
  · exact h.of_stations rfl (.refl _)
  · next id c hok =>
    have hc := State.homeCheck_opened hok
    have list := h.list id
    rw [hc] at list
    obtain ⟨gone, e⟩ := evaluate_lands (recordFrame r) (gridSource r t.grid) list.nodup s.sets
    obtain ⟨home, left⟩ := Prod.mk.inj e.roster
    refine h.release_at (gone := gone) (id := id) rfl ?_ (fun i hi => congrArg StagingSet.arming (e.freed i hi))
      (fun i hi => congrArg StagingSet.arming (e.kept i hi)) ?_ fun _ => ?_
    · rw [hc]
      exact e.own
    · rw [hc]
      exact left
    · rw [hc]
      exact congrArg some home

theorem State.openCheck_free {s : State} {t : Task} {r : Block64} {q : OpenRequest} {items : List Item}
    (h : s.openCheck t r = .ok (q, items)) : s.stations[q.id] = .free := by
  unfold State.openCheck at h
  split at h
  · cases h
  · split at h
    · cases h
    · split at h
      · cases h
      · split at h
        · cases h
        · split at h
          · next hc => cases h; exact hc
          · cases h

/-- The set that an OPEN_STATION names is OPEN before it is freed (R4, R5). -/
theorem State.freeNamed_arming {s : State} {set : Option SetId} {items : List Item} (h : s.openItems set = .ok items) :
    ArmingKept s.sets (s.freeNamed set).sets := by
  cases set with
  | none => exact .refl _
  | some i => exact .set_none (congrArg StagingSet.arming (openSetCheck_opened h)) rfl

theorem ArmedSound.openStation {s : State} (h : ArmedSound s) (k : SlotId) :
    Leaves (execOpenStation k s) ArmedSound := by
  refine executing_leaves h fun t r => ?_
  split
  · exact h.of_stations rfl (.refl _)
  · next q items hok =>
    obtain ⟨-, hi⟩ := State.openCheck_request hok
    dsimp only
    split
    · exact h.of_stations rfl (.refl _)
    · refine h.of_set (id := q.id) (x := .opened (openedStation q r (Profile.defaults.merge items))) (by simp)
        (State.freeNamed_arming hi) ?_ fun hx => absurd rfl hx
      rw [State.openCheck_free hok]
      rfl

theorem ArmedSound.closeStation {s : State} (h : ArmedSound s) (k : SlotId) :
    Leaves (execCloseStation k s) ArmedSound := by
  refine executing_leaves h fun t r => ?_
  split
  · exact h.of_stations rfl (.refl _)
  · next id c hok =>
    have hc := State.closeCheck_opened hok
    refine ArmedSound.endCloseDrain ?_ k
    exact h.of_set (id := id) (x := .closing c) rfl (.refl _) (by rw [hc]; rfl) fun _ => by rw [hc]; rfl

/-- A commit that passes its checks has its set OPEN for the task's ring, its station homed on that ring (R106). -/
theorem State.commitCheck_ok {s : State} {t : Task} {r : Block64} {q : CommitRequest} (h : s.commitCheck t r = .ok q) :
    s.sets[q.setId] = .opened t.ring q.items ∧ q.station.homeRing = t.ring := by
  unfold State.commitCheck at h
  split at h
  · split at h
    · cases h
    · split at h
      · cases h
      · next items hi =>
        split at h
        · cases h
        · split at h
          · cases h
          · next hring =>
            cases h
            exact ⟨openSetCheck_opened hi, not_not.mp hring⟩
        · split at h <;> cases h
  · cases h

theorem ArmedSound.stageCommit {s : State} (h : ArmedSound s) (k : SlotId) :
    Leaves (execStageCommit k s) ArmedSound := by
  have failed {t : Task} {r : Block64} {status : Status} {n : Nat} {x : StageExtra} :
      ArmedSound (s.answerStage k t r status n x) := h.of_stations rfl (.refl _)
  refine executing_leaves h fun t r => ?_
  split
  · exact failed
  · next q hq =>
    have hc := State.commitCheck_opened hq
    obtain ⟨hset, home⟩ := State.commitCheck_ok hq
    have opened : (s.sets[q.setId]).arming = none := congrArg StagingSet.arming hset
    split
    · unfold State.commitAtFrame
      dsimp only
      split
      · exact failed
      · next short =>
        split
        · exact failed
        · next fresh =>
          refine h.arm hc opened (Nat.not_le.mp short) (fun a ha e => fresh ?_) rfl (by rw [home]; rfl)
          exact List.any_eq_true.mpr ⟨a, ha, beq_iff_eq.mpr e⟩
    · unfold State.commitImmediate
      dsimp only
      split
      · exact failed
      · exact h.of_opened hc rfl (.set_none opened rfl) rfl

/-- An ARMED set of an OPEN station is withdrawn (R109). -/
theorem ArmedSound.withdraw {s t : State} (h : ArmedSound s) {i : SetId} {owner : WorkRingId} {id : StationId}
    {frame : Frame} {c : Station} (hi : (s.sets[i]).arming = some (owner, id, frame)) (hc : s.stations[id] = .opened c)
    (sets : t.sets = s.sets.set i .free)
    (stations : t.stations = s.stations.set id (.opened { c with armed := c.armed.erase i })) : ArmedSound t := by
  have list := h.list id
  rw [hc] at list
  have nodup : c.armed.Nodup := list.nodup
  refine h.release_at (gone := [i]) stations (by simpa using h.mem_listed hi) (fun j hj => ?_)
    (fun j hj => ?_) ?_ fun _ => by rw [hc]; rfl
  · rw [sets, get_set, if_pos (List.mem_singleton.mp hj).symm]
    rfl
  · rw [sets, get_set, if_neg fun e => hj (List.mem_singleton.mpr e.symm)]
  · rw [hc, Context.listed_opened, Context.listed_opened, nodup.erase_eq_filter]
    exact List.filter_congr fun j _ => by simp [bne, beq_eq_decide]

theorem ArmedSound.stageDiscard {s : State} (h : ArmedSound s) (k : SlotId) :
    Leaves (execStageDiscard k s) ArmedSound := by
  refine executing_leaves h fun t r => ?_
  split
  · exact h.of_stations rfl (.refl _)
  · next i _ =>
    split
    · next hi => exact h.of_stations rfl (.set_none (congrArg StagingSet.arming hi) rfl)
    · next hi => exact h.of_stations rfl (.set_none (congrArg StagingSet.arming hi) rfl)
    · next owner items id frame hi =>
      have armed : (s.sets[i]).arming = some (owner, id, frame) := congrArg StagingSet.arming hi
      split
      · exact h.of_stations rfl (.refl _)
      · next hc =>
        have listed := h.mem_listed armed
        rw [hc] at listed
        cases listed
      · next c hc => exact h.withdraw armed hc rfl rfl

/-! ## Every command -/

theorem armedSound_exec (i : Instr) (s : State) (h : ArmedSound s) : Leaves (exec i s) ArmedSound := by
  cases hi : leavesStations i with
  | true => exact fun t e => h.of_stations (exec_stations hi s t e) (exec_arming hi s t e)
  | false =>
    cases i with
    | openStation k => exact h.openStation k
    | closeStation k => exact h.closeStation k
    | measure k => exact h.measure k
    | freeze k => exact h.homeCommand _ _ _ fun _ _ => rfl
    | thaw k => exact h.homeCommand _ _ _ fun _ c => c.thaw_roster
    | reseek k => exact h.homeCommand _ _ _ fun _ _ => rfl
    | setActuators k => exact h.homeCommand _ _ _ fun _ c => c.setActuators_roster ..
    | ackNotice k => exact h.homeCommand _ _ _ fun _ _ => rfl
    | stageCommit k => exact h.stageCommit k
    | stageDiscard k => exact h.stageDiscard k
    | softReset v | startUp v | enableOff v | quiesce v | quiesceClear v => exact h.reached (h.writeCtrl v)
    | postWork v | releaseResult v | badOperation v => exact h.reached (h.writePost v)
    | registerWrite offset bytes v =>
      refine h.reached ?_
      split
      · exact h.writeRegister offset v
      · exact h
    | powerOnReset | pinReset => exact leaves_next ((ArmedSound.teardown s).of_stations rfl (.refl _))
    | resultWriteDone n i e => exact h.resultWriteDone n i e
    | closeDrainEnd k => exact leaves_next (h.endCloseDrain k)
    | noticeEmission id => exact leaves_next (h.emitNotice id)
    | _ => cases hi

/-- Settles O57: a put alone fills the pool, within its free blocks; a commit alone arms a set, in frame order. -/
theorem poolStaysSound : Obligations.PoolStaysSound := by
  unfold Obligations.PoolStaysSound
  exact ⟨fun s t h e => step_keeps (fun s rest h => h.keep (.refl _)) poolSound_exec h e,
    fun s t h e => step_keeps (fun s rest h => h.of_stations rfl (.refl _)) armedSound_exec h e⟩

end Sys2Proof.Machine
end

section
/-! Profiles by field (R96 to R98): the catalogue, merging item by item, and the failing relation. -/
namespace Sys2Proof.Machine

/-! ## The value of a field (R98, R191) -/

theorem Pace.code_injective : Function.Injective Pace.code :=
  Function.LeftInverse.injective (g := paceOf) fun a => by cases a <;> rfl

theorem Order.code_injective : Function.Injective Order.code :=
  Function.LeftInverse.injective (g := orderOf) fun a => by cases a <;> rfl

theorem GapPolicy.code_injective : Function.Injective GapPolicy.code :=
  Function.LeftInverse.injective (g := gapPolicyOf) fun a => by cases a <;> rfl

theorem Inflight.code_injective : Function.Injective Inflight.code :=
  Function.LeftInverse.injective (g := inflightOf) fun a => by cases a <;> rfl

/-- The fields are all that a profile holds. -/
theorem Profile.ext_value {p q : Profile} (h : ∀ f, p.value f = q.value f) : p = q := by
  have rows : p.weightRows = q.weightRows := bank_ext fun r => BitVec.eq_of_toNat_eq (h (.weightRow r))
  have pace := Pace.code_injective (h .pace)
  have order := Order.code_injective (h .order)
  have gapPolicy := GapPolicy.code_injective (h .gapPolicy)
  have inflight := Inflight.code_injective (h .inflight)
  have mask : p.noticeMask = q.noticeMask := BitVec.eq_of_toNat_eq (h .noticeMask)
  cases p
  cases q
  exact (Profile.mk.injEq ..).mpr ⟨h .innerLo, h .innerHi, h .outerLo, h .outerHi, h .rushLo, h .rushHi, pace, h .damp,
    h .intMin, h .intMax, h .gainMax, h .lvlMin, h .lvlMax, order, h .quantum, h .extMax, h .colLo, h .colHi, h .rowLo,
    h .rowHi, rows, h .clipLimit, h .clipCellsMax, h .gapLimit, gapPolicy, inflight, mask⟩

/-! ## Merging (R98) -/

theorem paceOf_code {v : Nat} (h : v ≤ 2) : (paceOf v).code = v := by
  interval_cases v <;> rfl

theorem orderOf_code {v : Nat} (h : v ≤ 5) : (orderOf v).code = v := by
  interval_cases v <;> rfl

theorem gapPolicyOf_code {v : Nat} (h : v ≤ 1) : (gapPolicyOf v).code = v := by
  interval_cases v <;> rfl

theorem inflightOf_code {v : Nat} (h : v ≤ 1) : (inflightOf v).code = v := by
  interval_cases v <;> rfl

/-- A field replaced by an accepted value has it. -/
theorem value_replace_same (p : Profile) {f : Field} {v : BitVec 32} (h : ItemInRange (f, v)) :
    (p.replace (f, v)).value f = v.toNat := by
  have top : v.toNat ≤ f.range.2 := h.2
  cases f with
  | pace => exact paceOf_code top
  | order => exact orderOf_code top
  | gapPolicy => exact gapPolicyOf_code top
  | inflight => exact inflightOf_code top
  | weightRow r => simp [Profile.value, Profile.replace]
  | noticeMask =>
    have top : v.toNat ≤ 0x1FF := top
    rw [Profile.replace, Profile.value, BitVec.toNat_ofNat]
    omega
  | _ => rfl

/-- Replacing a field leaves every other as it was. -/
theorem value_replace_other (p : Profile) {f g : Field} (v : BitVec 32) (h : g ≠ f) :
    (p.replace (g, v)).value f = p.value f := by
  cases g with
  | weightRow r =>
    cases f with
    | weightRow r' =>
      have other : r ≠ r' := fun e => h (e ▸ rfl)
      rw [Profile.replace, Profile.value, get_set, if_neg other]
      rfl
    | _ => rfl
  | _ => cases f <;> first | rfl | exact absurd rfl h

theorem merge_concat (base : Profile) (items : List Item) (x : Item) :
    base.merge (items ++ [x]) = (base.merge items).replace x :=
  List.foldl_concat ..

/-- A merge gives a field named the last of its values and keeps every other. -/
theorem value_merge (base : Profile) {items : List Item} (h : ∀ it ∈ items, ItemInRange it) (f : Field) :
    (base.merge items).value f = match items.reverse.find? (fun it => it.1 == f) with
      | none => base.value f
      | some it => it.2.toNat := by
  induction items using List.reverseRecOn with
  | nil => rfl
  | append_singleton items x ih =>
    obtain ⟨hitems, hx⟩ := List.forall_mem_append.mp h
    obtain ⟨g, v⟩ := x
    rw [merge_concat, List.reverse_concat]
    by_cases hg : g = f
    · subst hg
      rw [List.find?_cons_of_pos (by simp), value_replace_same _ (hx _ (List.mem_singleton_self _))]
    · rw [List.find?_cons_of_neg (by simpa using hg), value_replace_other _ v hg, ih hitems]

/-! ## The catalogue (R96) -/

theorem catalogue_rows : ∀ row ∈ catalogue, fieldOfId row.id = some row.field ∧
    row.field.range = (row.least, row.greatest) ∧ Profile.defaults.value row.field = row.default := by
  decide

/-- The id of a field, as the catalogue has it. -/
theorem fieldOfId_mem {id : Nat} {f : Field} (h : fieldOfId id = some f) : id ∈ catalogue.map CatalogueRow.id := by
  unfold fieldOfId at h
  split at h
  case h_35 => cases h
  all_goals decide

/-! ## The failing relation (R97) -/

theorem relation_succ_iff (p : Profile) (m : Nat) : Relation p (m + 1) ↔ ∀ b ∈ p.relations[m]?, b = true := by
  match m with
  | 0 | 1 | 2 | 3 | 4 | 5 | 6 | 7 | 8 => simp [Relation, Profile.relations]
  | n + 9 => simp [Relation, Profile.relations]

/-- All relations hold where the nine do. -/
theorem relation_all_iff (p : Profile) : (∀ n, Relation p n) ↔ p.consistent = true := by
  rw [Profile.consistent, List.all_eq_true]
  constructor
  · intro h b hb
    obtain ⟨m, hm⟩ := List.mem_iff_getElem?.mp hb
    exact (relation_succ_iff p m).mp (h (m + 1)) b hm
  · intro h n
    cases n with
    | zero => trivial
    | succ m => exact (relation_succ_iff p m).mpr fun b hb => h b (List.mem_of_getElem? hb)

theorem failingRelation_eq_zero_iff (p : Profile) : p.failingRelation = 0 ↔ ∀ n, Relation p n := by
  rw [relation_all_iff, Profile.failingRelation]
  split
  · next h => simp [h]
  · next h => simp [h]

theorem not_relation_succ_iff (p : Profile) (m : Nat) : ¬Relation p (m + 1) ↔ p.relations[m]? = some false := by
  rw [relation_succ_iff]
  cases p.relations[m]? with
  | none => simp
  | some b => simp

theorem findIdx?_relations_eq_some_iff (p : Profile) (m : Nat) :
    p.relations.findIdx? (!·) = some m ↔ ¬Relation p (m + 1) ∧ ∀ j < m, Relation p (j + 1) := by
  rw [List.findIdx?_eq_some_iff_getElem, not_relation_succ_iff]
  constructor
  · rintro ⟨hm, here, before⟩
    refine ⟨by simpa [List.getElem?_eq_getElem hm] using here, fun j hj => ?_⟩
    rw [relation_succ_iff, List.getElem?_eq_getElem (hj.trans hm)]
    simpa using before j hj
  · rintro ⟨here, before⟩
    obtain ⟨hm, e⟩ := List.getElem?_eq_some_iff.mp here
    refine ⟨hm, by simp [e], fun j hj => ?_⟩
    simpa using (relation_succ_iff p j).mp (before j hj) _ (List.getElem?_eq_getElem (hj.trans hm))

/-- The failing relation is the first that fails. -/
theorem failingRelation_eq_succ_iff (p : Profile) (m : Nat) :
    p.failingRelation = m + 1 ↔ ¬Relation p (m + 1) ∧ ∀ j < m + 1, Relation p j := by
  have first : (∀ j < m + 1, Relation p j) ↔ ∀ j < m, Relation p (j + 1) :=
    Nat.forall_lt_succ_left.trans (and_iff_right trivial)
  rw [first]
  by_cases h : p.consistent = true
  · have all := (relation_all_iff p).mpr h
    simp [(failingRelation_eq_zero_iff p).mpr all, all]
  · obtain ⟨b, hb, hf⟩ : ∃ b ∈ p.relations, ¬id b = true := by simpa [Profile.consistent] using h
    have fails : p.relations.findIdx (!·) < p.relations.length :=
      List.findIdx_lt_length_of_exists ⟨b, hb, by simpa using hf⟩
    rw [← findIdx?_relations_eq_some_iff, Profile.failingRelation, if_neg h, Nat.succ_inj,
      List.findIdx?_eq_some_iff_findIdx_eq]
    exact ⟨fun e => ⟨e ▸ fails, e⟩, And.right⟩

/-- Settles O44: merging and putting by induction on the items from their end, the failing relation by its place. -/
theorem putKeepsTheFieldMap : Obligations.PutKeepsTheFieldMap := by
  unfold Obligations.PutKeepsTheFieldMap
  refine ⟨fun base items h f => value_merge base h f, fun p q => Profile.ext_value, catalogue_rows, rfl, fun id h => ?_,
    fun p => ⟨failingRelation_eq_zero_iff p, fun n hn => ?_⟩, fun items held h => ?_⟩
  · cases hf : fieldOfId id with
    | none => rfl
    | some f => exact absurd (fieldOfId_mem hf) h
  · obtain ⟨m, rfl⟩ := Nat.exists_eq_add_of_le' hn
    exact failingRelation_eq_succ_iff p m
  · exact ⟨nodup_putItems items h, fieldsOf_putItems_extends items held, fun f v => mem_putItems items h,
      drop_fieldsOf_putItems items held⟩

end Sys2Proof.Machine
end

section
/-! STAGE_OPEN, STAGE_DISCARD and STAGE_PUT: their checks in order and what each leaves (R102 to R104, R109, R117). -/
namespace Sys2Proof.Machine

/-! ## STAGE_OPEN (R102) -/

theorem lowestFreeSet_eq_some {sets : Vector StagingSet 8} {i : SetId} (h : sets[i] = .free)
    (low : ∀ j < i, sets[j] ≠ .free) : lowestFreeSet sets = some i := by
  refine List.find?_eq_some_iff_getElem.mpr ⟨by simp [h], i.val, by simp, by simp, fun j hj => ?_⟩
  have := low ⟨j, hj.trans i.isLt⟩ hj
  simpa using this

theorem lowestFreeSet_eq_none {sets : Vector StagingSet 8} (h : ∀ i : SetId, sets[i] ≠ .free) :
    lowestFreeSet sets = none :=
  List.find?_eq_none.mpr fun i _ => by simpa using h i

section stageOpen
variable {s : State} {k : SlotId} {t : Task} {r : Block64}

theorem execStageOpen_opens (hr : Runs s k t r 0x18) {i : SetId} (h : lowestFreeSet s.sets = some i) :
    execStageOpen k s = .next ((s.setSet i (.opened t.ring [])).answerStage k t r .ok i.val {}) := by
  rw [execStageOpen, State.executing_of_runs (kind := Kind.stageOpen) hr, h]

theorem execStageOpen_full (hr : Runs s k t r 0x18) (h : lowestFreeSet s.sets = none) :
    execStageOpen k s = .next (s.answerStage k t r .setLimit 0xFF {}) := by
  rw [execStageOpen, State.executing_of_runs (kind := Kind.stageOpen) hr, h]

end stageOpen

/-! ## STAGE_DISCARD (R109) -/

section stageDiscard
variable {s : State} {k : SlotId} {t : Task} {r : Block64} {i : SetId}

theorem State.discardCheck_badField (h : 8 ≤ recordByte8 r) : s.discardCheck t r = .error .badField := by
  rw [State.discardCheck, idOf_of_le h]

theorem State.discardCheck_noSet (hi : recordByte8 r = i.val) (h : s.sets[i] = .free) :
    s.discardCheck t r = .error .noSet := by
  rw [State.discardCheck, hi, idOf_val]
  dsimp only
  rw [h]
  rfl

/-- What the check answers for a set that is not FREE. -/
theorem State.discardCheck_owned (hi : recordByte8 r = i.val) {owner : WorkRingId} (h : (s.sets[i]).owner = some owner) :
    s.discardCheck t r = if owner ≠ t.ring then .error .notOwner else .ok i := by
  rw [State.discardCheck, hi, idOf_val]
  dsimp only
  rw [h]

theorem StagingSet.exists_owner {x : StagingSet} (h : x ≠ .free) : ∃ owner, x.owner = some owner := by
  cases x with
  | free => exact absurd rfl h
  | opened owner _ | armed owner _ _ _ => exact ⟨owner, rfl⟩

theorem State.discardCheck_notOwner (hi : recordByte8 r = i.val) (h : s.sets[i] ≠ .free)
    (ho : (s.sets[i]).owner ≠ some t.ring) : s.discardCheck t r = .error .notOwner := by
  obtain ⟨owner, owned⟩ := StagingSet.exists_owner h
  rw [State.discardCheck_owned hi owned]
  exact if_pos fun e : owner = t.ring => ho (e ▸ owned)

theorem State.discardCheck_ok (hi : recordByte8 r = i.val) (ho : (s.sets[i]).owner = some t.ring) :
    s.discardCheck t r = .ok i := by
  rw [State.discardCheck_owned hi ho]
  exact if_neg (not_not.mpr rfl)

theorem execStageDiscard_fails (hr : Runs s k t r 0x1B) {status : Status} (h : s.discardCheck t r = .error status) :
    execStageDiscard k s = .next (s.answerStage k t r status (recordByte8 r) {}) := by
  rw [execStageDiscard, State.executing_of_runs (kind := Kind.stageDiscard) hr, h]

theorem execStageDiscard_opened (hr : Runs s k t r 0x1B) (h : s.discardCheck t r = .ok i) {ring : WorkRingId}
    {items : List Item} (hs : s.sets[i] = .opened ring items) :
    execStageDiscard k s = .next ((s.setSet i .free).answerStage k t r .ok i.val { prior := .opened }) := by
  rw [execStageDiscard, State.executing_of_runs (kind := Kind.stageDiscard) hr, h]
  dsimp only
  rw [hs]

section armed
variable {ring : WorkRingId} {items : List Item} {id : StationId} {frame : Frame} {c : Station}

theorem execStageDiscard_closing (hr : Runs s k t r 0x1B) (h : s.discardCheck t r = .ok i)
    (hs : s.sets[i] = .armed ring items id frame) (hc : s.stations[id] = .closing c) :
    execStageDiscard k s = .next (s.answerStage k t r .stationClosing i.val {}) := by
  rw [execStageDiscard, State.executing_of_runs (kind := Kind.stageDiscard) hr, h]
  dsimp only
  rw [hs]
  dsimp only
  rw [hc]

theorem execStageDiscard_withdraws (hr : Runs s k t r 0x1B) (h : s.discardCheck t r = .ok i)
    (hs : s.sets[i] = .armed ring items id frame) (hc : s.stations[id] = .opened c) :
    execStageDiscard k s = .next (((s.setSet i .free).setStation id (.opened { c with
      armed := c.armed.erase i })).answerStage k t r .ok i.val { prior := .armed }) := by
  rw [execStageDiscard, State.executing_of_runs (kind := Kind.stageDiscard) hr, h]
  dsimp only
  rw [hs]
  dsimp only
  rw [hc]

end armed
end stageDiscard

/-- Settles O42: an open by the lowest FREE id, a discard by its checks, the set's state and the station's. -/
theorem stageOpenAndDiscard : Obligations.StageOpenAndDiscard := by
  unfold Obligations.StageOpenAndDiscard
  refine ⟨fun s k t r hr => ⟨fun i h low => execStageOpen_opens hr (lowestFreeSet_eq_some h low),
    fun h => execStageOpen_full hr (lowestFreeSet_eq_none h)⟩, fun s k t r hr => ?_⟩
  intro fails
  refine ⟨fun h => execStageDiscard_fails hr (State.discardCheck_badField h), fun i hi => ?_⟩
  have pass {x : StagingSet} (hs : s.sets[i] = x) (ho : x.owner = some t.ring) : s.discardCheck t r = .ok i :=
    State.discardCheck_ok hi (hs ▸ ho)
  refine ⟨fun h => execStageDiscard_fails hr (State.discardCheck_noSet hi h),
    fun h ho => execStageDiscard_fails hr (State.discardCheck_notOwner hi h ho),
    fun items hs => execStageDiscard_opened hr (pass hs rfl) hs, fun items id frame hs => ⟨fun c hc => ?_, fun c hc =>
      execStageDiscard_withdraws hr (pass hs rfl) hs hc⟩⟩
  show execStageDiscard k s = .next (s.answerStage k t r .stationClosing (recordByte8 r) {})
  rw [hi]
  exact execStageDiscard_closing hr (pass hs rfl) hs hc

/-! ## STAGE_PUT (R103) -/

/-- The items of a record from one on are its items one by one. -/
theorem recordItems_eq_some_iff {r : Block64} {n m : Nat} {items : List Item} :
    recordItems r n m = some items ↔ items.length = n ∧ ∀ j < n, recordItem r (m + j) = items[j]? := by
  induction n generalizing m items with
  | zero =>
    rw [recordItems, Option.some_inj]
    exact ⟨fun e => by simp [← e], fun ⟨h, _⟩ => (List.eq_nil_of_length_eq_zero h).symm⟩
  | succ n ih =>
    have step : recordItems r (n + 1) m = some items ↔
        ∃ it rest, recordItem r m = some it ∧ recordItems r n (m + 1) = some rest ∧ it :: rest = items := by
      rw [recordItems]
      cases recordItem r m with
      | none => simp
      | some it =>
        cases recordItems r n (m + 1) with
        | none => simp
        | some rest => simp
    rw [step]
    constructor
    · rintro ⟨it, rest, hit, hrest, rfl⟩
      obtain ⟨len, get⟩ := ih.mp hrest
      refine ⟨by simp [len], Nat.forall_lt_succ_left.mpr ⟨hit, fun j hj => ?_⟩⟩
      rw [List.getElem?_cons_succ, ← get j hj, Nat.add_assoc, Nat.add_comm 1]
    · rintro ⟨len, get⟩
      obtain ⟨it, rest, rfl⟩ := List.exists_cons_of_length_eq_add_one len
      obtain ⟨hit, get⟩ := Nat.forall_lt_succ_left.mp get
      refine ⟨it, rest, hit, ih.mpr ⟨Nat.succ_inj.mp len, fun j hj => ?_⟩, rfl⟩
      rw [Nat.add_assoc, Nat.add_comm 1, get j hj, List.getElem?_cons_succ]

theorem recordItems_eq_none {r : Block64} {n j : Nat} (hj : j < n) (h : recordItem r j = none) :
    recordItems r n 0 = none := by
  cases hi : recordItems r n 0 with
  | none => rfl
  | some items =>
    obtain ⟨len, get⟩ := recordItems_eq_some_iff.mp hi
    have item := get j hj
    rw [Nat.zero_add, h, eq_comm, List.getElem?_eq_none_iff] at item
    omega

section stagePut
variable {s : State} {k : SlotId} {t : Task} {r : Block64} {i : SetId} {items held new : List Item}

theorem putRequest_badField (h : 8 ≤ recordByte8 r ∨ recordByte9 r = 0 ∨ 7 ≤ recordByte9 r ∨
    ∃ j < recordByte9 r, recordItem r j = none) : putRequest r = none := by
  unfold putRequest
  split
  · rfl
  · next i hi =>
    split
    · next hn =>
      rcases h with h | h | h | ⟨j, hj, h⟩
      · rw [idOf_of_le h] at hi
        cases hi
      · omega
      · omega
      · rw [recordItems_eq_none hj h]
        rfl
    · rfl

theorem putRequest_of (hi : recordByte8 r = i.val) (h1 : 1 ≤ recordByte9 r) (h6 : recordByte9 r ≤ 6)
    (len : items.length = recordByte9 r) (get : ∀ j < recordByte9 r, recordItem r j = items[j]?) :
    putRequest r = some (i, items) := by
  have found : recordItems r (recordByte9 r) 0 = some items :=
    recordItems_eq_some_iff.mpr ⟨len, fun j hj => by rw [Nat.zero_add, get j hj]⟩
  rw [putRequest, hi, idOf_val]
  dsimp only
  rw [if_pos ⟨h1, h6⟩, found]
  rfl

theorem State.putCheck_badField (h : putRequest r = none) : s.putCheck t r = .error .badField := by
  rw [State.putCheck, h]

theorem State.putCheck_set (hq : putRequest r = some (i, items)) {status : Status}
    (h : openSetCheck t.ring s.sets[i] = .error status) : s.putCheck t r = .error status := by
  rw [State.putCheck, hq]
  dsimp only
  rw [h]

/-- What the checks answer once the set has passed: the free blocks (R103). -/
theorem State.putCheck_blocks (hq : putRequest r = some (i, items)) (hs : s.sets[i] = .opened t.ring held) :
    s.putCheck t r =
      if freeBlocks s.sets < blocksNeeded items held then .error .noSpace else .ok (i, putItems items held) := by
  rw [State.putCheck, hq]
  dsimp only
  rw [hs, openSetCheck_own]

theorem execStagePut_fails (hr : Runs s k t r 0x19) {status : Status} (h : s.putCheck t r = .error status) :
    execStagePut k s = .next (s.answerStage k t r status (recordByte8 r) {}) := by
  rw [execStagePut, State.executing_of_runs (kind := Kind.stagePut) hr, h]

theorem execStagePut_puts (hr : Runs s k t r 0x19) (h : s.putCheck t r = .ok (i, new)) :
    execStagePut k s = .next ((s.setSet i (.opened t.ring new)).answerStage k t r .ok i.val
      { itemCount := new.length, blocksHeld := blocksFor new.length }) := by
  rw [execStagePut, State.executing_of_runs (kind := Kind.stagePut) hr, h]

end stagePut

/-- Settles O43: the record's fields, then the set, then the free blocks, then the put. -/
theorem stagePut : Obligations.StagePut := by
  unfold Obligations.StagePut
  intro s k t r hr fails
  have fail {status : Status} (h : s.putCheck t r = .error status) : fails status := execStagePut_fails hr h
  refine ⟨fun h => fail (State.putCheck_badField (putRequest_badField h)), fun i items hi h1 h6 len get => ?_⟩
  have hq := putRequest_of hi h1 h6 len get
  refine ⟨fun h => fail (State.putCheck_set hq (openSetCheck_noSet h)),
    fun h ho => fail (State.putCheck_set hq (openSetCheck_notOwner h ho)), fun held hs => ?_⟩
  have check := State.putCheck_blocks hq hs
  exact ⟨fun full => fail (check.trans (if_pos full)),
    fun room => execStagePut_puts hr (check.trans (if_neg (Nat.not_lt.mpr room)))⟩

end Sys2Proof.Machine
end

section
/-! STAGE_COMMIT: its checks in order, the IMMEDIATE install and the AT_FRAME arming (R106 to R108, R117). -/
namespace Sys2Proof.Machine

section stageCommit
variable {s : State} {k : SlotId} {t : Task} {r : Block64} {i : SetId} {id : StationId} {items : List Item} {c : Station}

/-! ## The checks (R106) -/

theorem State.commitCheck_badField (h : 8 ≤ recordByte8 r ∨ 32 ≤ recordByte9 r ∨ 2 ≤ recordByteA r) :
    s.commitCheck t r = .error .badField := by
  unfold State.commitCheck
  split
  · next i id hi hid =>
    have h8 := idOf_eq_some hi
    have h9 := idOf_eq_some hid
    exact if_pos (by omega)
  · rfl

/-- What the checks answer once the fields have passed: the set, then the station. -/
theorem State.commitCheck_fields (hi : recordByte8 r = i.val) (hid : recordByte9 r = id.val) (hA : recordByteA r ≤ 1) :
    s.commitCheck t r = openSetCheck t.ring s.sets[i] >>= fun items =>
      match s.stations[id] with
      | .free => .error .noStation
      | .opened c => if c.homeRing ≠ t.ring then .error .wrongRing else .ok ⟨i, items, id, c⟩
      | .closing c => if c.homeRing ≠ t.ring then .error .wrongRing else .error .stationClosing := by
  rw [State.commitCheck, hi, hid, idOf_val, idOf_val]
  dsimp only
  rw [if_neg (Nat.not_lt.mpr hA)]
  cases openSetCheck t.ring s.sets[i] with
  | error status => rfl
  | ok items => rfl

section fields
variable (hi : recordByte8 r = i.val) (hid : recordByte9 r = id.val) (hA : recordByteA r ≤ 1)
include hi hid hA

theorem State.commitCheck_set {status : Status} (h : openSetCheck t.ring s.sets[i] = .error status) :
    s.commitCheck t r = .error status := by
  rw [State.commitCheck_fields hi hid hA, h]
  rfl

/-- What the checks answer once the set has passed: the station. -/
theorem State.commitCheck_station (hs : s.sets[i] = .opened t.ring items) :
    s.commitCheck t r = match s.stations[id] with
      | .free => .error .noStation
      | .opened c => if c.homeRing ≠ t.ring then .error .wrongRing else .ok ⟨i, items, id, c⟩
      | .closing c => if c.homeRing ≠ t.ring then .error .wrongRing else .error .stationClosing := by
  rw [State.commitCheck_fields hi hid hA, hs, openSetCheck_own]
  rfl

theorem State.commitCheck_noStation (hs : s.sets[i] = .opened t.ring items) (hc : s.stations[id] = .free) :
    s.commitCheck t r = .error .noStation := by
  rw [State.commitCheck_station hi hid hA hs, hc]

theorem State.commitCheck_wrongRing (hs : s.sets[i] = .opened t.ring items) (hc : (s.stations[id]).station = some c)
    (home : c.homeRing ≠ t.ring) : s.commitCheck t r = .error .wrongRing := by
  rw [State.commitCheck_station hi hid hA hs]
  cases hx : s.stations[id] with
  | free =>
    rw [hx] at hc
    cases hc
  | opened d =>
    rw [hx] at hc
    cases hc
    exact if_pos home
  | closing d =>
    rw [hx] at hc
    cases hc
    exact if_pos home

theorem State.commitCheck_closing (hs : s.sets[i] = .opened t.ring items) (hc : (s.stations[id]).station = some c)
    (home : c.homeRing = t.ring) (closing : (s.stations[id]).state = .closing) :
    s.commitCheck t r = .error .stationClosing := by
  rw [State.commitCheck_station hi hid hA hs]
  cases hx : s.stations[id] with
  | closing d =>
    rw [hx] at hc
    cases hc
    exact if_neg (not_not.mpr home)
  | free | opened d =>
    rw [hx] at closing
    cases closing

theorem State.commitCheck_passes (hs : s.sets[i] = .opened t.ring items) (hc : s.stations[id] = .opened c)
    (home : c.homeRing = t.ring) : s.commitCheck t r = .ok ⟨i, items, id, c⟩ := by
  rw [State.commitCheck_station hi hid hA hs, hc]
  exact if_neg (not_not.mpr home)

end fields

/-! ## The two modes (R107, R108) -/

theorem execStageCommit_fails (hr : Runs s k t r 0x1A) {status : Status} (h : s.commitCheck t r = .error status) :
    execStageCommit k s = .next (s.answerStage k t r status (recordByte8 r) {}) := by
  rw [execStageCommit, State.executing_of_runs (kind := Kind.stageCommit) hr, h]

theorem execStageCommit_immediate (hr : Runs s k t r 0x1A) {q : CommitRequest} (h : s.commitCheck t r = .ok q)
    (hA : recordByteA r = 0) : execStageCommit k s = .next (s.commitImmediate k t r q) := by
  rw [execStageCommit, State.executing_of_runs (kind := Kind.stageCommit) hr, h]
  dsimp only
  rw [if_neg (by omega)]

theorem execStageCommit_atFrame (hr : Runs s k t r 0x1A) {q : CommitRequest} (h : s.commitCheck t r = .ok q)
    (hA : recordByteA r = 1) : execStageCommit k s = .next (s.commitAtFrame k t r q) := by
  rw [execStageCommit, State.executing_of_runs (kind := Kind.stageCommit) hr, h]
  dsimp only
  rw [if_pos hA]

section modes
variable {q : CommitRequest}

theorem State.commitImmediate_invalid (h : ¬ConsistentProfile (q.station.profile.merge q.items)) :
    s.commitImmediate k t r q = s.answerStage k t r .profileInvalid q.setId.val
      { relation := (q.station.profile.merge q.items).failingRelation } := by
  rw [← consistent_iff, Bool.not_eq_true] at h
  exact if_pos (by rw [h]; rfl)

theorem State.commitImmediate_installs (h : ConsistentProfile (q.station.profile.merge q.items)) :
    s.commitImmediate k t r q = ((s.setSet q.setId .free).setStation q.id (.opened
      (({ q.station with profile := q.station.profile.merge q.items } : Station).raise .applied))).answerStage
        k t r .ok q.setId.val {} := by
  rw [← consistent_iff] at h
  exact if_neg (by rw [h]; exact Bool.false_ne_true)

theorem State.commitAtFrame_full (h : 2 ≤ q.station.armed.length) :
    s.commitAtFrame k t r q = s.answerStage k t r .armLimit q.setId.val {} := if_pos h

theorem State.commitAtFrame_conflict (h : q.station.armed.length < 2)
    (hf : ∃ a ∈ q.station.armed, (s.sets[a]).frame = recordFrame r) :
    s.commitAtFrame k t r q = s.answerStage k t r .armConflict q.setId.val {} := by
  obtain ⟨a, ha, e⟩ := hf
  refine (if_neg (Nat.not_le.mpr h)).trans (if_pos ?_)
  exact List.any_eq_true.mpr ⟨a, ha, beq_iff_eq.mpr e⟩

theorem State.commitAtFrame_arms (h : q.station.armed.length < 2)
    (hf : ∀ a ∈ q.station.armed, (s.sets[a]).frame ≠ recordFrame r) {position : Nat}
    (hp : armPosition s.sets (recordFrame r) q.station.armed = position) :
    s.commitAtFrame k t r q = ((s.setSet q.setId (.armed t.ring q.items q.id (recordFrame r))).setStation q.id
      (.opened { q.station with armed := q.station.armed.insertIdx position q.setId })).answerStage k t r .ok q.setId.val
        { position, frame := recordFrame r } := by
  subst hp
  refine (if_neg (Nat.not_le.mpr h)).trans (if_neg fun hc => ?_)
  obtain ⟨a, ha, e⟩ := List.any_eq_true.mp hc
  exact hf a ha (beq_iff_eq.mp e)

/-- In a list of at most one set, the place is the first where every set listed is after the frame, else the second. -/
theorem armPosition_first {sets : Vector StagingSet 8} {e : Frame} {l : List SetId}
    (first : ∀ a ∈ l, frameAfter (sets[a]).frame e = true) : armPosition sets e l = 0 := by
  cases l with
  | nil => rfl
  | cons a rest => exact if_pos (first a List.mem_cons_self)

theorem armPosition_second {sets : Vector StagingSet 8} {e : Frame} {l : List SetId} (short : l.length < 2)
    (second : ¬∀ a ∈ l, frameAfter (sets[a]).frame e = true) :
    armPosition sets e l = 1 ∧ ∀ i, l.insertIdx 1 i = l ++ [i] := by
  match l with
  | [] => exact absurd (fun _ h => absurd h List.not_mem_nil) second
  | [a] => exact ⟨if_neg fun ha => second fun b hb => (List.mem_singleton.mp hb).symm ▸ ha, fun i => rfl⟩
  | _ :: _ :: rest => simp at short

end modes
end stageCommit

/-- Settles O45: the record's fields, the set, the station, then the mode's own test and its change. -/
theorem stageCommit : Obligations.StageCommit := by
  unfold Obligations.StageCommit
  intro s k t r hr reply
  have fail {status : Status} (h : s.commitCheck t r = .error status) : reply status 0 := execStageCommit_fails hr h
  refine ⟨fun h => fail (State.commitCheck_badField h), fun i id hi hid hA => ?_⟩
  refine ⟨fun h => fail (State.commitCheck_set hi hid hA (openSetCheck_noSet h)),
    fun h ho => fail (State.commitCheck_set hi hid hA (openSetCheck_notOwner h ho)), fun items hs => ?_⟩
  refine ⟨fun hc => fail (State.commitCheck_noStation hi hid hA hs hc), fun c hc =>
    ⟨fun home => fail (State.commitCheck_wrongRing hi hid hA hs hc home),
      fun home closing => fail (State.commitCheck_closing hi hid hA hs hc home closing)⟩, fun c hc home => ?_⟩
  have check := State.commitCheck_passes hi hid hA hs hc home
  have refuse {status : Status} {relation : Nat}
      (h : execStageCommit k s = .next (s.answerStage k t r status i.val { relation })) : reply status relation := by
    rw [← hi] at h
    exact h
  refine ⟨fun h0 bad => refuse ?_, fun h0 ok => ?_, fun h1 full => refuse ?_, fun h1 short clash => refuse ?_,
    fun h1 short fresh => ⟨fun first => ?_, fun second => ?_⟩⟩
  · rw [execStageCommit_immediate hr check h0, State.commitImmediate_invalid bad]
  · exact (execStageCommit_immediate hr check h0).trans (congrArg _ (State.commitImmediate_installs ok))
  · rw [execStageCommit_atFrame hr check h1, State.commitAtFrame_full full]
  · rw [execStageCommit_atFrame hr check h1, State.commitAtFrame_conflict short clash]
  · exact (execStageCommit_atFrame hr check h1).trans
      (congrArg _ (State.commitAtFrame_arms short fresh (armPosition_first first)))
  · obtain ⟨position, list⟩ := armPosition_second short second
    have arms := State.commitAtFrame_arms (k := k) (t := t) (q := ⟨i, items, id, c⟩) short fresh position
    dsimp only at arms
    rw [list i] at arms
    exact (execStageCommit_atFrame hr check h1).trans (congrArg _ arms)

end Sys2Proof.Machine
end

section
/-! Writes of consecutive bytes: each byte at its address, every other address left alone. -/
namespace Sys2Proof.Machine

/-- The next byte's address (wrapping at 2^64: log entry 8). -/
theorem succ_add_ofNat (a : Address) (i : Nat) : a + 1 + BitVec.ofNat 64 i = a + BitVec.ofNat 64 (i + 1) := by
  rw [BitVec.add_assoc, Nat.add_comm i 1, BitVec.ofNat_add]
  rfl

/-- No later byte of a write that fits the address space comes back to its first address. -/
theorem first_ne_later (a : Address) {i : Nat} (h : i + 1 < 2 ^ 64) :
    a.toNat ≠ (a + BitVec.ofNat 64 (i + 1)).toNat := by
  have := a.isLt
  rw [BitVec.toNat_add, BitVec.toNat_ofNat, Nat.mod_eq_of_lt h]
  omega

theorem Memory.read_writeBytes_other {m : Memory} {a : Address} {data : List Byte} {x : Nat}
    (h : ∀ i, i < data.length → x ≠ (a + BitVec.ofNat 64 i).toNat) : (m.writeBytes a data).read x = m.read x := by
  induction data generalizing m a with
  | nil => rfl
  | cons b bs ih =>
    have first : x ≠ a.toNat := by simpa using h 0 (Nat.zero_lt_succ _)
    have later : ∀ i, i < bs.length → x ≠ (a + 1 + BitVec.ofNat 64 i).toNat := fun i hi => by
      rw [succ_add_ofNat]
      exact h (i + 1) (Nat.succ_lt_succ hi)
    rw [Memory.writeBytes, ih later, Memory.read_write_other _ _ first]

theorem Memory.read_writeBytes_placed {m : Memory} {a : Address} {data : List Byte} (hl : data.length ≤ 2 ^ 64)
    {i : Nat} (hi : i < data.length) : (m.writeBytes a data).read (a + BitVec.ofNat 64 i).toNat = data[i]? := by
  induction data generalizing m a i with
  | nil => exact absurd hi (Nat.not_lt_zero i)
  | cons b bs ih =>
    rw [List.length_cons] at hl hi
    rw [Memory.writeBytes]
    cases i with
    | zero =>
      have kept : ∀ j, j < bs.length → a.toNat ≠ (a + 1 + BitVec.ofNat 64 j).toNat := fun j hj => by
        rw [succ_add_ofNat]
        exact first_ne_later a (by omega)
      have start : a + BitVec.ofNat 64 0 = a := BitVec.add_zero a
      rw [start, Memory.read_writeBytes_other kept, Memory.read_write_same]
      rfl
    | succ i =>
      rw [← succ_add_ofNat]
      exact ih (by omega) (by omega)

/-- Settles O28: both halves by induction on the bytes, a later byte having an address of its own. -/
theorem writeBytesPlacesThem : Obligations.WriteBytesPlacesThem := by
  unfold Obligations.WriteBytesPlacesThem
  exact fun m a data hl =>
    ⟨fun i hi => Memory.read_writeBytes_placed hl hi, fun b hb => Memory.read_writeBytes_other hb⟩

end Sys2Proof.Machine
end

section
/-! QUIESCE_CLEAR and RELEASE_RESULT: the two register writes that offer freed slots to waiting stations (R147, R148,
R156, R166). -/
namespace Sys2Proof.Machine

theorem State.reached_of_memorySpace {s : State} (h : s.link.memorySpace = true) (act : State → State) :
    s.reached act = act s := if_pos h

/-! ## CTRL with ENABLE 1 and QUIESCE 0 -/

section quiesceClear
variable {s : State} {v : Register}

theorem execQuiesceClear_enabled (hm : s.link.memorySpace = true) (h2 : v.getLsbD 2 = false)
    (h0 : v.getLsbD 0 = true) (h1 : v.getLsbD 1 = false) :
    execQuiesceClear v s = .next (({ s with quiesceBit := false } : State).enabledWrite s.quiesceBit) := by
  rw [execQuiesceClear, State.reached_of_memorySpace hm]
  simp only [State.writeCtrl, ctrlSoftReset, ctrlEnable, ctrlQuiesce, h2, h0, h1, Bool.false_eq_true, if_false, if_true]

/-- QUIESCE going from 1 to 0 ends a quiesce (R166). -/
theorem State.enabledWrite_resumes (hc : s.controller = .quiescing ∨ s.controller = .quiesced)
    (hq : s.quiesceBit = false) : s.enabledWrite true = s.resume := by
  unfold State.enabledWrite
  rcases hc with hc | hc <;> simp only [hc, hq, Bool.not_false, Bool.and_true, if_true]

/-- A QUIESCE of 0 that was 0 before resumes nothing (R166). -/
theorem State.enabledWrite_unquiesced (hc : s.controller = .quiescing ∨ s.controller = .quiesced) :
    s.enabledWrite false = s := by
  unfold State.enabledWrite
  rcases hc with hc | hc <;> simp only [hc, Bool.false_and, Bool.false_eq_true, if_false]

/-- In these states a QUIESCE of 0 is only stored (R160). -/
theorem State.enabledWrite_stores (hc : s.controller = .starting ∨ s.controller = .running ∨ s.controller = .halted)
    (hq : s.quiesceBit = false) (before : Bool) : s.enabledWrite before = s := by
  unfold State.enabledWrite
  rcases hc with hc | hc | hc <;> simp only [hc, hq, Bool.and_false, Bool.false_eq_true, if_false]

theorem State.quiesceBit_kept {b : Bool} (h : s.quiesceBit = b) : { s with quiesceBit := b } = s := by
  subst h
  rfl

/-- The return to RUNNING with QUIESCE stored as 0 (R166). -/
theorem State.resume_unquiesced
    (hsize : ∀ (n : ResultRingId) (q : ResultRing), s.resultRings[n] = some q → q.size ≤ 1024) :
    ({ s with quiesceBit := false } : State).resume =
      afterOffers { s with controller := .running, quiesceBit := false } (List.finRange 4) :=
  State.resume_spec hsize

end quiesceClear

/-- Settles O7: the CTRL write by controller state, the return to RUNNING by the offers it makes ring after ring. -/
theorem quiesceClearResumes : Obligations.QuiesceClearResumes := by
  unfold Obligations.QuiesceClearResumes
  intro s v hm h2 h0 h1
  have write := execQuiesceClear_enabled hm h2 h0 h1
  refine ⟨fun hc hq hsize => ?_, fun hc => ?_, fun hc hq => ?_, fun _ => rfl⟩
  · rw [hq, State.enabledWrite_resumes (s := { s with quiesceBit := false }) hc rfl,
      State.resume_unquiesced hsize] at write
    exact write
  · rw [State.enabledWrite_stores (s := { s with quiesceBit := false }) hc rfl] at write
    exact write
  · rw [hq, State.enabledWrite_unquiesced (s := { s with quiesceBit := false }) hc, State.quiesceBit_kept hq] at write
    exact write

/-! ## RELEASE_RESULT -/

/-- A rejected POST write records itself and sets POST_REJECT (R174). -/
theorem State.reject_spec (s : State) (value : Register) (reason : RejectReason) :
    s.reject value reason = rejectedAs s value reason := by
  rw [State.reject, State.setCause_spec]
  rfl

section releaseCheck
variable {q : ResultRing} {new : RingIndex}

theorem ResultRing.releaseCheck_overrun (h1 : 1 ≤ (new - q.produced).toNat)
    (h2 : (new - q.produced).toNat ≤ q.size) : q.releaseCheck new = some .overrun := if_pos ⟨h1, h2⟩

/-- An index at or behind the produced one is no overrun (R147). -/
theorem ResultRing.no_overrun (h : new = q.produced ∨ q.size < (new - q.produced).toNat) :
    ¬(1 ≤ (new - q.produced).toNat ∧ (new - q.produced).toNat ≤ q.size) := by
  rintro ⟨h1, h2⟩
  rcases h with rfl | h
  · rw [BitVec.sub_self] at h1
    exact absurd h1 (by decide)
  · omega

theorem ResultRing.releaseCheck_regress (h : new = q.produced ∨ q.size < (new - q.produced).toNat)
    (hr : (q.produced - q.released).toNat < (new - q.released).toNat) : q.releaseCheck new = some .regress :=
  (if_neg (ResultRing.no_overrun h)).trans (if_pos hr)

theorem ResultRing.releaseCheck_passes (h : new = q.produced ∨ q.size < (new - q.produced).toNat)
    (hr : (new - q.released).toNat ≤ (q.produced - q.released).toNat) : q.releaseCheck new = none :=
  (if_neg (ResultRing.no_overrun h)).trans (if_neg (Nat.not_lt.mpr hr))

end releaseCheck

section releaseResult
variable {s : State} {v : Register} {n : ResultRingId} {q : ResultRing}

theorem execReleaseResult_release (hm : s.link.memorySpace = true) (ho : postOperation v = 2#4) :
    execReleaseResult v s = .next (s.releaseResult v) := by
  rw [execReleaseResult, State.reached_of_memorySpace hm, State.writePost, if_neg (by rw [ho]; decide), if_pos ho]

theorem State.releaseResult_noId (h : 4 ≤ (postRing v).toNat) : s.releaseResult v = rejectedAs s v .noRing := by
  rw [State.releaseResult, idOf_of_le h]
  exact s.reject_spec v _

theorem State.releaseResult_absent (hn : (postRing v).toNat = n.val) (hq : s.resultRings[n] = none) :
    s.releaseResult v = rejectedAs s v .noRing := by
  simp only [State.releaseResult, hn, idOf_val, hq, State.reject_spec]

theorem State.releaseResult_rejects (hn : (postRing v).toNat = n.val) (hq : s.resultRings[n] = some q)
    {reason : RejectReason} (h : q.releaseCheck (postIndex v) = some reason) :
    s.releaseResult v = rejectedAs s v reason := by
  simp only [State.releaseResult, hn, idOf_val, hq, h, State.reject_spec]

theorem State.releaseResult_same (hn : (postRing v).toNat = n.val) (hq : s.resultRings[n] = some q)
    (h : q.releaseCheck (postIndex v) = none) (hv : postIndex v = q.released) : s.releaseResult v = s := by
  simp only [State.releaseResult, hn, idOf_val, hq, h, if_pos hv]

/-- A new index is stored and the freed slots are offered (R147, R148). -/
theorem State.releaseResult_moves (hn : (postRing v).toNat = n.val) (hq : s.resultRings[n] = some q)
    (h : q.releaseCheck (postIndex v) = none) (hv : postIndex v ≠ q.released) :
    s.releaseResult v = (s.setResultRing n (some { q with released := postIndex v })).offerSlots n := by
  simp only [State.releaseResult, hn, idOf_val, hq, h, if_neg hv]

/-- While notices are emitted, the offer goes to the stations waiting on the ring (R148, R156). -/
theorem State.releaseResult_offers (hn : (postRing v).toNat = n.val) (hq : s.resultRings[n] = some q)
    (h : q.releaseCheck (postIndex v) = none) (hv : postIndex v ≠ q.released)
    (he : s.controller = .running ∨ s.controller = .quiescing) (hsize : q.size ≤ 1024) :
    s.releaseResult v =
      afterOffers { s with resultRings := s.resultRings.set n (some { q with released := postIndex v }) } [n] := by
  rw [State.releaseResult_moves hn hq h hv]
  refine State.offerSlots_spec (fun p hp => ?_) he
  rw [State.setResultRing_resultRings, get_set, if_pos rfl] at hp
  cases hp
  exact hsize

/-- While no notices are emitted, the index is stored and nothing else happens (R156). -/
theorem State.releaseResult_stores (hn : (postRing v).toNat = n.val) (hq : s.resultRings[n] = some q)
    (h : q.releaseCheck (postIndex v) = none) (hv : postIndex v ≠ q.released) (h1 : s.controller ≠ .running)
    (h2 : s.controller ≠ .quiescing) :
    s.releaseResult v = { s with resultRings := s.resultRings.set n (some { q with released := postIndex v }) } := by
  rw [State.releaseResult_moves hn hq h hv, State.offerSlots_of_not (s := s.setResultRing n _) h1 h2]
  rfl

end releaseResult

/-- Settles O11: the checks in their order, then the offer of the freed slots by whether notices are emitted. -/
theorem releaseResultChecks : Obligations.ReleaseResultChecks := by
  unfold Obligations.ReleaseResultChecks
  intro s v hm ho
  have write := execReleaseResult_release hm ho
  refine ⟨fun h => write.trans (congrArg _ (State.releaseResult_noId h)), fun n hn =>
    ⟨fun hq => write.trans (congrArg _ (State.releaseResult_absent hn hq)), fun q hq => ⟨fun h1 h2 => ?_, fun h =>
      ⟨fun hr => ?_, fun hr => ?_⟩⟩⟩⟩
  · exact write.trans (congrArg _ (State.releaseResult_rejects hn hq (ResultRing.releaseCheck_overrun h1 h2)))
  · exact write.trans (congrArg _ (State.releaseResult_rejects hn hq (ResultRing.releaseCheck_regress h hr)))
  have passes := ResultRing.releaseCheck_passes h hr
  exact ⟨fun same => write.trans (congrArg _ (State.releaseResult_same hn hq passes same)),
    fun moved he hsize => write.trans (congrArg _ (State.releaseResult_offers hn hq passes moved he hsize)),
    fun moved h1 h2 => write.trans (congrArg _ (State.releaseResult_stores hn hq passes moved h1 h2))⟩

end Sys2Proof.Machine
end

section
/-! NOTICEs: their bytes and emission (R154 to R156, R193), and the end of their writes (R146, R155, R157, R158). -/
namespace Sys2Proof.Machine

/-! ## The bytes of a NOTICE (R193) -/

/-- A NOTICE's fields in a row, to 0x15. -/
def noticeFields (id : StationId) (c : Station) : List RowField :=
  [ (1, 0x82), (1, 0), (2, 0), (1, 0xFF), (1, id.val), (2, 0), (2, c.pendingSet.toNat), (1, c.loop.code),
    (1, bit c.lastFrame.isSome), (4, (c.lastFrame.getD 0).toNat), (2, c.newest.i), (2, c.newest.g), (2, c.newest.l) ]

theorem rowSize_noticeFields (id : StationId) (c : Station) : rowSize (noticeFields id c) = 22 := by
  simp only [noticeFields, rowSize]

theorem noticeBytes_eq_rowBytes (id : StationId) (c : Station) :
    noticeBytes id c = rowBytes (noticeFields id c ++ [(10, 0)]) := by
  have filled := padTo_rowBytes (n := 32) (fields := noticeFields id c) (by rw [rowSize_noticeFields]; omega)
  rw [rowSize_noticeFields] at filled
  rw [← filled, noticeBytes]
  simp only [noticeFields, rowBytes, List.flatMap_cons, List.flatMap_nil, List.append_nil, List.append_assoc, byte]

/-- The fields of a NOTICE fill its table; the bytes between and after the rows are 0. -/
theorem fills_notice (id : StationId) (c : Station) :
    Fills 0 (noticeFields id c ++ [(10, 0)]) (noticeContents id c) := by
  have mark : bit c.lastFrame.isSome = if c.lastFrame = none then 0 else 1 := by
    cases c.lastFrame <;> rfl
  constructor <;> simp [noticeContents, noticeFields, placed, mark]

theorem laid_notice (id : StationId) (c : Station) : Laid 32 (noticeContents id c) (noticeBytes id c) := by
  rw [noticeBytes_eq_rowBytes]
  exact laid_of_fills (fills_notice id c) (by rw [rowSize_append, rowSize_noticeFields]; rfl)

/-- Settles O46: the table by the fields, the event by the shared lemmas on an emission. -/
theorem noticeEmission : Obligations.NoticeEmission := by
  unfold Obligations.NoticeEmission
  exact ⟨laid_notice, fun s id => ⟨fun c q hc hq hw hr he => congrArg _ (State.emitNotice_of hc hq hw hr he),
    fun h => congrArg _ (State.emitNotice_of_not h)⟩⟩

/-! ## The end of a NOTICE's write -/

/-- The end of a NOTICE's write renews its station's mark and, with the task table empty, signals a record of the ring
that no signal has counted (R155, R158). -/
theorem State.noticeWritten_spec {s : State} {id : StationId} {c : Station} {n : ResultRingId} {q : ResultRing}
    (hc : s.stations[id] = .opened c) (hq : s.resultRings[n] = some q) :
    let marked : State := { s with
      stations := s.stations.set id (.opened { c with noticeInFlight := s.noticePending id }) }
    s.noticeWritten id n = if s.tableEmpty ∧ 0 < q.unsignalled then { marked with
        resultRings := s.resultRings.set n (some { q with unsignalled := 0 })
        cause := s.cause ||| resultBit n
        messages := messagesAfter s (s.cause ||| resultBit n) s.mask }
      else marked := by
  intro marked
  have renewed : s.setStation id ((s.stations[id]).update fun c => { c with noticeInFlight := s.noticePending id }) =
      marked := by
    rw [hc]
    rfl
  have announced := State.announce_spec (s := marked) hq fun q => decide (0 < q.unsignalled)
  unfold State.noticeWritten
  rw [renewed]
  by_cases he : s.tableEmpty = true
  · have he' : marked.tableEmpty = true := he
    rw [if_pos he', announced]
    simp only [he, true_and, decide_eq_true_eq]
    rfl
  · have he' : ¬marked.tableEmpty = true := he
    rw [if_neg he', if_neg fun h => he h.1]

/-- Once a NOTICE's record is written, the end of its write changes the station's mark, and the empty task table signals
a record that its ring's threshold has left uncounted (R155, R157, R158). -/
theorem recordWritten_noticeWritten {s : State} {id : StationId} {c : Station} {n : ResultRingId} (q : ResultRing)
    (x : Transfer) (data : List Byte) (hc : s.stations[id] = .opened c) :
    let written := recordWritten s n q x data
    let rest := without s x.kind x.epoch
    let produced := (rest.findSome? (Transfer.resultIndex n)).getD q.placed
    let signals := decide (q.threshold ≤ q.unsignalled + 1) || decide (∀ k : SlotId, s.slots[k] = none)
    written.noticeWritten id n = { s with
      stations := s.stations.set id (.opened { c with noticeInFlight := written.noticePending id })
      resultRings := s.resultRings.set n (some
        { q with produced := produced, unsignalled := if signals then 0 else q.unsignalled + 1 })
      cause := if signals then s.cause ||| resultBit n else s.cause
      messages := if signals then messagesAfter s (s.cause ||| resultBit n) s.mask else s.messages
      transfers := rest ++ [producedWriteBack s n produced]
      hostMemory := Memory.writeBytes s.hostMemory x.address data } := by
  intro written rest produced signals
  have counted : written.resultRings[n] = some { q with
      produced := produced
      unsignalled := if decide (q.threshold ≤ q.unsignalled + 1) then 0 else q.unsignalled + 1 } := by
    show (s.resultRings.set n _)[n] = _
    rw [get_set, if_pos rfl]
  have empty : written.tableEmpty = true ↔ ∀ k : SlotId, s.slots[k] = none := written.tableEmpty_iff
  rw [State.noticeWritten_spec (s := written) hc counted]
  by_cases ht : q.threshold ≤ q.unsignalled + 1
  · have hs : signals = true := by simp only [signals, ht, decide_true, Bool.true_or]
    rw [if_neg (by simp [ht])]
    simp only [hs, written, recordWritten, ht, decide_true, if_true]
    rfl
  · by_cases he : ∀ k : SlotId, s.slots[k] = none
    · have hs : signals = true := by simp only [signals, he, implies_true, decide_true, Bool.or_true]
      rw [if_pos (by simp [ht, empty, he])]
      simp only [hs, written, recordWritten, ht, decide_false, if_true, Bool.false_eq_true, if_false, Vector.set_set]
      rfl
    · have hs : signals = false := by simp only [signals, ht, he, decide_false, Bool.or_self]
      rw [if_neg (by simp only [empty, he, false_and, not_false_eq_true])]
      simp only [hs, written, recordWritten, ht, decide_false, Bool.false_eq_true, if_false]
      rfl

/-- Settles O24: the record is written, then the mark renewed and the ring signalled, and no drain is settled. -/
theorem noticeWritten : Obligations.NoticeWritten := by
  unfold Obligations.NoticeWritten
  intro s id c n i q x e data hc hq hx hk hd hf hnone rest produced signals
  obtain ⟨-, rfl⟩ := resultIndex_of_oldestResult hx
  refine ⟨(recordWritten s n q x data).noticePending id, recordWritten_noticePending id, ?_⟩
  refine (execResultWriteDone_notice hx hk hf hd hq).trans ?_
  rw [recordWritten_noticeWritten q x data hc]
  exact congrArg _ (State.settleDrains_of_none hnone)

end Sys2Proof.Machine
end

section
/-! CREATE_RESULT_RING and DELETE_RESULT_RING: the checks in their order and the effects (R142, R149 to R151). -/
namespace Sys2Proof.Machine

theorem ringSizeAccepted_iff (n : Nat) : ringSizeAccepted n = true ↔ RingSize n := by
  simp [ringSizeAccepted]

section results
variable {s : State} {k : SlotId} {t : Task} {r : Block64} {n : ResultRingId} {q : ResultRing}

/-! ## CREATE_RESULT_RING -/

/-- The fields of a CREATE_RESULT_RING record in range (R149). -/
abbrev CreateResultInRange (r : Block64) : Prop :=
  (1 ≤ recordByte8 r ∧ recordByte8 r ≤ 3) ∧ (recordAddress r).toNat % 32 = 0 ∧ RingSize (recordSize r) ∧
    1 ≤ recordThreshold r ∧ recordThreshold r ≤ recordSize r

theorem createResultRequest_of (h8 : recordByte8 r = n.val) (h : CreateResultInRange r) :
    createResultRequest r = some n := by
  obtain ⟨⟨hlow, -⟩, haddress, hsize, hthreshold⟩ := h
  have hn : n ≠ 0 := by
    rintro rfl
    rw [h8] at hlow
    exact absurd hlow (by decide)
  unfold createResultRequest
  simp only [h8, idOf_val]
  exact if_pos ⟨hn, haddress, (ringSizeAccepted_iff _).mpr hsize, hthreshold⟩

theorem createResultRequest_range (h : createResultRequest r = some n) : CreateResultInRange r := by
  unfold createResultRequest at h
  split at h
  · cases h
  · next m hm =>
    split at h
    · next hc =>
      obtain ⟨hne, haddress, hsize, hthreshold⟩ := hc
      have h0 : m.val ≠ 0 := fun e => hne (Fin.ext e)
      have hlt := m.isLt
      rw [← idOf_eq_some hm] at h0 hlt
      exact ⟨⟨by omega, by omega⟩, haddress, (ringSizeAccepted_iff _).mp hsize, hthreshold⟩
    · cases h

theorem State.createResultCheck_wrongRing (h : t.ring ≠ 0) : s.createResultCheck t r = .error .wrongRing := if_pos h

theorem State.createResultCheck_badField (h : t.ring = 0) (hf : ¬CreateResultInRange r) :
    s.createResultCheck t r = .error .badField := by
  unfold State.createResultCheck
  rw [if_neg (not_not.mpr h)]
  split
  · rfl
  · next n hn => exact absurd (createResultRequest_range hn) hf

theorem State.createResultCheck_exists (h : t.ring = 0) (hn : createResultRequest r = some n)
    (hq : s.resultRings[n] ≠ none) : s.createResultCheck t r = .error .ringExists := by
  unfold State.createResultCheck
  rw [if_neg (not_not.mpr h), hn]
  exact if_pos (Option.isSome_iff_ne_none.mpr hq)

theorem State.createResultCheck_ok (h : t.ring = 0) (hn : createResultRequest r = some n)
    (hq : s.resultRings[n] = none) : s.createResultCheck t r = .ok n := by
  unfold State.createResultCheck
  simp only [if_neg (not_not.mpr h), hn, hq, Option.isSome_none, Bool.false_eq_true, if_false]

theorem execCreateResultRing_fails (hr : Runs s k t r 0x04) {status : Status}
    (h : s.createResultCheck t r = .error status) :
    execCreateResultRing k s = .next { s with slots := s.slots.set k (some (answered t r status .blank)) } := by
  rw [execCreateResultRing, State.executing_of_runs (kind := Kind.createResultRing) hr, h]
  rfl

/-- The ring made, with the write-back of its produced index 0 (R142, R149). -/
theorem execCreateResultRing_creates (hr : Runs s k t r 0x04) (h : s.createResultCheck t r = .ok n) :
    execCreateResultRing k s = .next { s with
      resultRings := s.resultRings.set n (some
        { base := recordAddress r, size := recordSize r, threshold := recordThreshold r, placed := 0, produced := 0,
          released := 0, reserved := 0, unsignalled := 0 })
      transfers := s.transfers ++ [producedWriteBack s n 0]
      slots := s.slots.set k (some (answered t r .ok
        (.createResultRing n.val (recordSize r) (recordThreshold r)))) } := by
  rw [execCreateResultRing, State.executing_of_runs (kind := Kind.createResultRing) hr, h]
  rfl

/-! ## DELETE_RESULT_RING -/

theorem boundTo_any_iff : s.workRings.toList.any (boundTo n) = true ↔
    ∃ m : WorkRingId, ∃ w, s.workRings[m] = some w ∧ w.resultRing = n := by
  rw [toList_any]
  refine exists_congr fun m => ?_
  cases s.workRings[m] with
  | none => simp [boundTo]
  | some w => simp [boundTo]

theorem notifiesOn_any_iff : s.stations.toList.any (·.notifiesOn n) = true ↔
    ∃ id : StationId, ∃ c, (s.stations[id]).station = some c ∧ c.noticeRing = n := by
  rw [toList_any]
  refine exists_congr fun id => ?_
  unfold Context.notifiesOn
  cases (s.stations[id]).station with
  | none => simp
  | some c => simp

/-- A result ring is in use: a work ring is bound to it, or a station names it as its notice ring (R150). -/
theorem ringInUse_iff :
    (s.workRings.toList.any (boundTo n) || s.stations.toList.any (·.notifiesOn n)) = true ↔
      (∃ m : WorkRingId, ∃ w, s.workRings[m] = some w ∧ w.resultRing = n) ∨
        ∃ id : StationId, ∃ c, (s.stations[id]).station = some c ∧ c.noticeRing = n := by
  rw [Bool.or_eq_true, boundTo_any_iff, notifiesOn_any_iff]

theorem State.deleteResultCheck_wrongRing (h : t.ring ≠ 0) : s.deleteResultCheck t r = .error .wrongRing := if_pos h

theorem State.deleteResultCheck_badField (h : t.ring = 0) (hf : recordByte8 r = 0 ∨ 4 ≤ recordByte8 r) :
    s.deleteResultCheck t r = .error .badField := by
  unfold State.deleteResultCheck
  rw [if_neg (not_not.mpr h)]
  rcases hf with h0 | h4
  · rw [h0]
    rfl
  · rw [idOf_of_le h4]

theorem State.deleteResultCheck_noRing (h : t.ring = 0) (hn : n ≠ 0) (h8 : recordByte8 r = n.val)
    (hq : s.resultRings[n] = none) : s.deleteResultCheck t r = .error .noRing := by
  unfold State.deleteResultCheck
  simp only [if_neg (not_not.mpr h), h8, idOf_val, if_neg hn, hq]

/-- A present ring is deleted unless it is in use (R150). -/
theorem State.deleteResultCheck_present (h : t.ring = 0) (hn : n ≠ 0) (h8 : recordByte8 r = n.val)
    (hq : s.resultRings[n] = some q) :
    s.deleteResultCheck t r =
      if s.workRings.toList.any (boundTo n) || s.stations.toList.any (·.notifiesOn n) then .error .ringInUse
      else .ok (n, q) := by
  unfold State.deleteResultCheck
  simp only [if_neg (not_not.mpr h), h8, idOf_val, if_neg hn, hq]

theorem execDeleteResultRing_fails (hr : Runs s k t r 0x05) {status : Status}
    (h : s.deleteResultCheck t r = .error status) :
    execDeleteResultRing k s = .next { s with slots := s.slots.set k (some (answered t r status .blank)) } := by
  rw [execDeleteResultRing, State.executing_of_runs (kind := Kind.deleteResultRing) hr, h]
  rfl

/-- The ring becomes ABSENT at once, and the records produced and not released are reported lost (R150). -/
theorem execDeleteResultRing_deletes (hr : Runs s k t r 0x05) (h : s.deleteResultCheck t r = .ok (n, q)) :
    execDeleteResultRing k s = .next { s with
      resultRings := s.resultRings.set n none
      slots := s.slots.set k (some (answered t r .ok
        (.deleteResultRing n.val (q.produced - q.released).toNat))) } := by
  rw [execDeleteResultRing, State.executing_of_runs (kind := Kind.deleteResultRing) hr, h]
  rfl

end results

/-- Settles O32: each command's checks in their order, then what it makes or removes. -/
theorem resultRingCommands : Obligations.ResultRingCommands := by
  unfold Obligations.ResultRingCommands
  refine ⟨fun s k t r hr => ?_, fun s k t r hr => ?_⟩
  · intro fields fails
    have fail {status : Status} (h : s.createResultCheck t r = .error status) : fails status :=
      execCreateResultRing_fails hr h
    refine ⟨fun h => fail (State.createResultCheck_wrongRing h),
      fun h hf => fail (State.createResultCheck_badField h hf), fun n h hf h8 => ?_⟩
    have request := createResultRequest_of h8 hf
    exact ⟨fun hq => fail (State.createResultCheck_exists h request hq),
      fun hq => execCreateResultRing_creates hr (State.createResultCheck_ok h request hq)⟩
  · intro fails
    have fail {status : Status} (h : s.deleteResultCheck t r = .error status) : fails status :=
      execDeleteResultRing_fails hr h
    refine ⟨fun h => fail (State.deleteResultCheck_wrongRing h),
      fun h hf => fail (State.deleteResultCheck_badField h hf), fun n h hn h8 => ?_⟩
    intro bound named
    refine ⟨fun hq => fail (State.deleteResultCheck_noRing h hn h8 hq), fun q hq => ?_⟩
    have check := State.deleteResultCheck_present h hn h8 hq
    refine ⟨fun used => fail ?_, fun unbound unnamed => execDeleteResultRing_deletes hr ?_⟩
    · rw [check, if_pos (ringInUse_iff.mpr used)]
    · rw [check, if_neg fun used => (ringInUse_iff.mp used).elim unbound unnamed]

end Sys2Proof.Machine
end

section
/-! CTRL writes by their bits (R160), the resets and enable-off (R169 to R171). -/
namespace Sys2Proof.Machine

/-! ## The write by its bits (R160) -/

section ctrlWrite
variable {s : State} {v : Register}

theorem State.writeCtrl_softReset (h2 : v.getLsbD 2 = true) : s.writeCtrl v = s.softReset := if_pos h2

theorem State.writeCtrl_enable (h2 : v.getLsbD 2 = false) (h0 : v.getLsbD 0 = true) :
    s.writeCtrl v = ({ s with quiesceBit := v.getLsbD 1 } : State).enabledWrite s.quiesceBit := by
  simp only [State.writeCtrl, ctrlSoftReset, ctrlEnable, ctrlQuiesce, h2, h0, Bool.false_eq_true, if_false, if_true]

theorem State.writeCtrl_disable (h2 : v.getLsbD 2 = false) (h0 : v.getLsbD 0 = false) :
    s.writeCtrl v = if s.controller = .off then { s with quiesceBit := v.getLsbD 1 }
      else ({ s with quiesceBit := v.getLsbD 1 } : State).teardown := by
  simp only [State.writeCtrl, ctrlSoftReset, ctrlEnable, ctrlQuiesce, h2, h0, Bool.false_eq_true, if_false]

end ctrlWrite

/-! ## Resets and enable-off (R169 to R171) -/

theorem State.softReset_spec (s : State) :
    ∃ m d, s.softReset = { tornDown s m d with
      quiesceBit := false, cause := 0, mask := 0, haltCause := .none, rejection := ⟨0, .none, 0⟩,
      resetCause := .soft } ∧ Torn s.transfers s.hostMemory m := by
  obtain ⟨m, d, e, torn⟩ := s.teardown_spec
  refine ⟨m, d, ?_, torn⟩
  rw [State.softReset, e]
  rfl

theorem State.hardReset_spec (s : State) (why : ResetCause) :
    ∃ m d, s.hardReset why = { State.reset with
      resetCause := why, pending := s.pending, messages := s.messages, hostMemory := m, draws := d, link := s.link,
      linkIsUp := s.linkIsUp, writeBackAddress := 0, epoch := s.epoch + 1 } ∧ Torn s.transfers s.hostMemory m := by
  obtain ⟨m, d, e, torn⟩ := s.teardown_spec
  refine ⟨m, d, ?_, torn⟩
  rw [State.hardReset, e]
  rfl

/-- Settles O3: both writes tear the device down, and soft reset clears the registers besides. -/
theorem teardownWrites : Obligations.TeardownWrites := by
  unfold Obligations.TeardownWrites
  refine ⟨fun s v hm h2 => ?_, fun s v hm h2 h0 => ?_⟩
  · obtain ⟨m, d, e, torn⟩ := s.softReset_spec
    refine ⟨m, d, ?_, torn⟩
    show execSoftReset v s = _
    rw [execSoftReset, State.reached_of_memorySpace hm, State.writeCtrl_softReset h2, e]
  · have write : exec (.enableOff v) s = .next (s.writeCtrl v) :=
      congrArg Host.Outcome.next (State.reached_of_memorySpace hm _)
    rw [State.writeCtrl_disable h2 h0] at write
    refine ⟨fun on => ?_, fun off => ?_⟩
    · obtain ⟨m, d, e, torn⟩ := ({ s with quiesceBit := v.getLsbD 1 } : State).teardown_spec
      rw [if_neg on, e] at write
      exact ⟨m, d, write, torn⟩
    · rwa [if_pos off] at write

end Sys2Proof.Machine
end

section
/-! What an event does to the controller state, the reset cause and the causes: most leave the controller state and at most
set causes; a halt, the end of start-up, a quiesce and a CTRL write move it along the state diagram (R159 to R173). -/
namespace Sys2Proof.Machine

/-! ## The interrupt message (R173) -/

/-- Where the signalled set does not go from empty to non-empty, nothing is sent. -/
theorem messagesAfter_of_no_edge {s : State} {cause mask : BitVec 8} (h : s.cause &&& s.mask = 0 → cause &&& mask = 0) :
    messagesAfter s cause mask = s.messages :=
  if_neg fun ⟨empty, edge, _⟩ => edge (h empty)

/-- What has been sent after two settings of causes is what one setting sends: the second finds the edge passed, or the
signalled set still empty. -/
theorem messagesAfter_trans {s t : State} {cause : BitVec 8} (mask : t.mask = s.mask) (link : t.link = s.link)
    (messages : t.messages = messagesAfter s t.cause s.mask) (first : s.cause ||| t.cause = t.cause)
    (second : t.cause ||| cause = cause) : messagesAfter t cause s.mask = messagesAfter s cause s.mask := by
  by_cases ht : t.cause &&& s.mask = 0
  · have hs : s.cause &&& s.mask = 0 := by
      rw [← first, BitVec.and_or_distrib_right] at ht
      exact (BitVec.or_eq_zero_iff.mp ht).1
    rw [messagesAfter_of_no_edge fun _ => ht] at messages
    simp only [messagesAfter, mask, link, messages, ht, hs]
  · have hc : cause &&& s.mask ≠ 0 := fun e => by
      rw [← second, BitVec.and_or_distrib_right] at e
      exact ht (BitVec.or_eq_zero_iff.mp e).1
    rw [messagesAfter_of_no_edge fun e => absurd (mask ▸ e) ht, messages]
    simp only [messagesAfter, ne_eq, ht, hc, not_false_eq_true, true_and]

/-! ## Events that set causes -/

/-- The reset cause, and all that the interrupt message depends on (R173, R175, R195). -/
def State.signals (s : State) : ResetCause × BitVec 8 × BitVec 8 × LinkConfig × List Message :=
  (s.resetCause, s.cause, s.mask, s.link, s.messages)

/-- An event that at most sets causes, with the message of that edge (R172, R173). -/
structure SetsCauses (s t : State) : Prop where
  resetCause : t.resetCause = s.resetCause
  mask : t.mask = s.mask
  link : t.link = s.link
  cause : s.cause ||| t.cause = t.cause
  messages : t.messages = messagesAfter s t.cause s.mask

namespace SetsCauses
variable {s t u : State}

theorem of_same (h : t.signals = s.signals) : SetsCauses s t := by
  simp only [State.signals, Prod.mk.injEq] at h
  obtain ⟨resetCause, cause, mask, link, messages⟩ := h
  refine ⟨resetCause, mask, link, by rw [cause, BitVec.or_self], ?_⟩
  rw [messages, cause, messagesAfter_of_no_edge id]

theorem refl (s : State) : SetsCauses s s := .of_same rfl

theorem trans (h : SetsCauses s t) (h' : SetsCauses t u) : SetsCauses s u where
  resetCause := h'.resetCause.trans h.resetCause
  mask := h'.mask.trans h.mask
  link := h'.link.trans h.link
  cause := by rw [← h'.cause, ← BitVec.or_assoc, h.cause]
  messages := by
    rw [h'.messages, h.mask]
    exact messagesAfter_trans h.mask h.link h.messages h.cause h'.cause

theorem ite {p : Prop} [Decidable p] (h : SetsCauses s t) (h' : SetsCauses s u) :
    SetsCauses s (if p then t else u) := by
  split
  · exact h
  · exact h'

theorem setCause (s : State) (k : Cause) : SetsCauses s (s.setCause k) := by
  rw [State.setCause_spec]
  exact ⟨rfl, rfl, rfl, by rw [← BitVec.or_assoc, BitVec.or_self], rfl⟩

end SetsCauses

/-! ## Events that leave the controller state -/

/-- An event that leaves the controller state and at most sets causes. -/
structure Reports (s t : State) : Prop extends SetsCauses s t where
  controller : t.controller = s.controller

namespace Reports
variable {s t u : State}

theorem of_same (controller : t.controller = s.controller) (signals : t.signals = s.signals) : Reports s t :=
  ⟨.of_same signals, controller⟩

theorem refl (s : State) : Reports s s := .of_same rfl rfl

theorem trans (h : Reports s t) (h' : Reports t u) : Reports s u :=
  ⟨h.toSetsCauses.trans h'.toSetsCauses, h'.controller.trans h.controller⟩

theorem foldl {α : Type} {f : State → α → State} (h : ∀ s a, Reports s (f s a)) (l : List α) (s : State) :
    Reports s (l.foldl f s) :=
  foldl_keeps (P := Reports s) (fun u a hu => hu.trans (h u a)) l (.refl s)

theorem endDone {kind : TransferKind} {e : Nat} (h : s.endDone kind e = some t) : Reports s t := by
  obtain ⟨x, -, -, m, rfl, -⟩ := State.endDone_eq_some h
  exact .of_same rfl rfl

theorem endFailed {kind : TransferKind} {e : Nat} (h : s.endFailed kind e = some t) : Reports s t := by
  obtain ⟨x, -, m, d, rfl, -⟩ := State.endFailed_eq_some h
  exact .of_same rfl rfl

variable (s)

theorem setCause (k : Cause) : Reports s (s.setCause k) := ⟨.setCause s k, rfl⟩

theorem announce (n : ResultRingId) (due : ResultRing → Bool) : Reports s (s.announce n due) := by
  unfold State.announce
  split
  · exact .refl s
  · split
    · exact .trans (t := s.setResultRing n _) (.of_same rfl rfl) (setCause _ _)
    · exact .refl s

theorem announceAll : Reports s s.announceAll := foldl (fun s n => announce s n _) _ s

theorem recordProduced (n : ResultRingId) : Reports s (s.recordProduced n) := by
  unfold State.recordProduced
  split
  · exact .refl s
  · have moved (q : ResultRing) : Reports s (s.setResultRing n (some q)) := .of_same rfl rfl
    exact ((moved _).trans (announce _ n _)).trans (.of_same rfl rfl)

theorem emitNotice (id : StationId) : Reports s (s.emitNotice id) := by
  rcases s.emitNotice_cases id with ⟨e, -⟩ | ⟨c, q, -, -, -, -, -, e⟩ <;> rw [e] <;> exact .of_same rfl rfl

theorem offerSlots (n : ResultRingId) : Reports s (s.offerSlots n) := by
  refine foldl (fun s id => ?_) _ s
  split
  · exact emitNotice s id
  · exact .refl s

theorem endCloseDrain (k : SlotId) : Reports s (s.endCloseDrain k) := by
  rcases s.endCloseDrain_cases k with e | ⟨t, r, id, c, -, -, -, -, e⟩ <;> rw [e] <;> exact .of_same rfl rfl

theorem endDeleteDrain (k : SlotId) : Reports s (s.endDeleteDrain k) := by
  rcases s.endDeleteDrain_cases k with e | ⟨t, r, n, w, -, -, -, -, e⟩ <;> rw [e] <;> exact .of_same rfl rfl

theorem settleDrains : Reports s s.settleDrains :=
  foldl (fun s k => (endCloseDrain s k).trans (endDeleteDrain _ k)) _ s

theorem freeSlot (k : SlotId) : Reports s (s.freeSlot k) := by
  unfold State.freeSlot
  split
  · exact .refl s
  · dsimp only
    split <;> exact .of_same rfl rfl

theorem noticeWritten (id : StationId) (n : ResultRingId) : Reports s (s.noticeWritten id n) := by
  have marked (c : Context) : Reports s (s.setStation id c) := .of_same rfl rfl
  unfold State.noticeWritten
  dsimp only
  split
  · exact (marked _).trans (announce _ n _)
  · exact marked _

theorem advanceWritten (n : WorkRingId) : Reports s (s.advanceWritten n) := by
  unfold State.advanceWritten
  split <;> exact .of_same rfl rfl

theorem holdRecord (k : SlotId) (t : Task) (r : Block64) : Reports s (s.holdRecord k t r) := by
  unfold State.holdRecord
  split <;> exact .of_same rfl rfl

theorem freeNamed (set : Option SetId) : Reports s (s.freeNamed set) := by
  cases set <;> exact .of_same rfl rfl

/-! ## POST writes -/

theorem reject (value : Register) (why : RejectReason) : Reports s (s.reject value why) :=
  .trans (t := { s with rejection := ⟨postOperation value, why, postRing value⟩ }) (.of_same rfl rfl) (setCause _ _)

theorem postWork (value : Register) : Reports s (s.postWork value) := by
  unfold State.postWork
  split
  · exact reject s _ _
  · split
    · exact reject s _ _
    · split
      · exact reject s _ _
      · exact .of_same rfl rfl

theorem releaseResult (value : Register) : Reports s (s.releaseResult value) := by
  unfold State.releaseResult
  split
  · exact reject s _ _
  · split
    · exact reject s _ _
    · split
      · exact reject s _ _
      · split
        · exact .refl s
        · exact .trans (t := s.setResultRing _ _) (.of_same rfl rfl) (offerSlots _ _)

theorem writePost (value : Register) : Reports s (s.writePost value) := by
  unfold State.writePost
  split
  · exact postWork s value
  · split
    · exact releaseResult s value
    · exact reject s _ _

/-! ## Takes, result writes and the ends of transfers that no block halts on -/

theorem take : Leaves (execTake s) (Reports s) := by
  unfold execTake
  refine leaves_next ?_
  split
  · split
    · exact .refl s
    · split <;> exact .of_same rfl rfl
  · exact .refl s

theorem recordReadDone (k : SlotId) (r : Block64) (e : Nat) : Leaves (execRecordReadDone k r s e) (Reports s) := by
  unfold execRecordReadDone
  refine leaves_next ?_
  split
  · exact .refl s
  · split
    · split
      · exact .refl s
      · next hs => exact ((endDone hs).trans (holdRecord _ k _ r)).trans (advanceWritten _ _)
    all_goals exact .refl s

theorem recordReadFault (k : SlotId) (e : Nat) : Leaves (execRecordReadFault k s e) (Reports s) := by
  unfold execRecordReadFault
  refine leaves_next ?_
  split
  · exact .refl s
  · split
    · split
      · exact .refl s
      · next hs =>
        refine .trans ?_ (advanceWritten _ _)
        split <;> exact (endFailed hs).trans (.of_same rfl rfl)
    all_goals exact .refl s

theorem gridReadDone (k : SlotId) (data : List Byte) (e : Nat) : Leaves (execGridReadDone k data s e) (Reports s) := by
  unfold execGridReadDone
  refine leaves_next ?_
  split
  · exact .refl s
  · split
    · split
      · exact .refl s
      · next hs =>
        split
        · exact (endDone hs).trans (.of_same rfl rfl)
        · exact .refl s
    all_goals exact .refl s

theorem gridReadFault (k : SlotId) (e : Nat) : Leaves (execGridReadFault k s e) (Reports s) := by
  unfold execGridReadFault
  refine leaves_next ?_
  split
  · exact .refl s
  · split
    · split
      · exact .refl s
      · next hs => exact (endFailed hs).trans (.of_same rfl rfl)
    all_goals exact .refl s

theorem snapshotWriteDone (k : SlotId) (e : Nat) : Leaves (execSnapshotWriteDone k s e) (Reports s) := by
  unfold execSnapshotWriteDone
  refine leaves_next ?_
  split
  · exact .refl s
  · next hs => exact endDone hs

theorem snapshotWriteFault (k : SlotId) (e : Nat) : Leaves (execSnapshotWriteFault k s e) (Reports s) := by
  unfold execSnapshotWriteFault
  refine leaves_next ?_
  split
  · exact .refl s
  · next hs => exact (endFailed hs).trans (.of_same rfl rfl)

theorem resultWrite (k : SlotId) : Leaves (execResultWrite k s) (Reports s) := by
  unfold execResultWrite
  refine leaves_next ?_
  split
  · exact .refl s
  · split
    · split
      · exact .refl s
      · split
        · exact .refl s
        · split <;> exact .of_same rfl rfl
    all_goals exact .refl s

theorem writebackDone (place : Place) (e : Nat) : Leaves (execWritebackDone place s e) (Reports s) := by
  unfold execWritebackDone
  refine leaves_next ?_
  split
  · exact .refl s
  · next hs => exact endDone hs

/-! ## Executions -/

theorem homeCommand (k : SlotId) (kind : Nat) (fields : Block64 → Bool) (act : Block64 → Station → Station) :
    Leaves (.next (s.homeCommand k kind fields act)) (Reports s) :=
  executing_leaves (.refl s) fun t r => by split <;> exact .of_same rfl rfl

theorem measure (k : SlotId) : Leaves (execMeasure k s) (Reports s) :=
  executing_leaves (.refl s) fun t r => by split <;> exact .of_same rfl rfl

theorem queryDevice (k : SlotId) : Leaves (execQueryDevice k s) (Reports s) :=
  executing_leaves (.refl s) fun t r => by split <;> exact .of_same rfl rfl

theorem createWorkRing (k : SlotId) : Leaves (execCreateWorkRing k s) (Reports s) :=
  executing_leaves (.refl s) fun t r => by split <;> exact .of_same rfl rfl

theorem deleteWorkRing (k : SlotId) : Leaves (execDeleteWorkRing k s) (Reports s) :=
  executing_leaves (.refl s) fun t r => by
    split
    · exact .of_same rfl rfl
    · refine .trans ?_ (endDeleteDrain _ k)
      exact .of_same rfl rfl

theorem createResultRing (k : SlotId) : Leaves (execCreateResultRing k s) (Reports s) :=
  executing_leaves (.refl s) fun t r => by split <;> exact .of_same rfl rfl

theorem deleteResultRing (k : SlotId) : Leaves (execDeleteResultRing k s) (Reports s) :=
  executing_leaves (.refl s) fun t r => by split <;> exact .of_same rfl rfl

theorem openStation (k : SlotId) : Leaves (execOpenStation k s) (Reports s) :=
  executing_leaves (.refl s) fun t r => by
    split
    · exact .of_same rfl rfl
    · dsimp only
      split
      · exact .of_same rfl rfl
      · exact (freeNamed s _).trans (.of_same rfl rfl)

theorem closeStation (k : SlotId) : Leaves (execCloseStation k s) (Reports s) :=
  executing_leaves (.refl s) fun t r => by
    split
    · exact .of_same rfl rfl
    · refine .trans ?_ (endCloseDrain _ k)
      exact .of_same rfl rfl

theorem readStation (k : SlotId) : Leaves (execReadStation k s) (Reports s) :=
  executing_leaves (.refl s) fun t r => by split <;> exact .of_same rfl rfl

theorem stageOpen (k : SlotId) : Leaves (execStageOpen k s) (Reports s) :=
  executing_leaves (.refl s) fun t r => by split <;> exact .of_same rfl rfl

theorem stagePut (k : SlotId) : Leaves (execStagePut k s) (Reports s) :=
  executing_leaves (.refl s) fun t r => by split <;> exact .of_same rfl rfl

theorem stageCommit (k : SlotId) : Leaves (execStageCommit k s) (Reports s) :=
  executing_leaves (.refl s) fun t r => by
    split
    · exact .of_same rfl rfl
    · split
      · unfold State.commitAtFrame
        dsimp only
        split
        · exact .of_same rfl rfl
        · split <;> exact .of_same rfl rfl
      · unfold State.commitImmediate
        dsimp only
        split <;> exact .of_same rfl rfl

theorem stageDiscard (k : SlotId) : Leaves (execStageDiscard k s) (Reports s) :=
  executing_leaves (.refl s) fun t r => by
    split
    · exact .of_same rfl rfl
    · split
      · exact .of_same rfl rfl
      · exact .of_same rfl rfl
      · split <;> exact .of_same rfl rfl

theorem badKind (k : SlotId) : Leaves (execBadKind k s) (Reports s) := by
  unfold execBadKind
  refine leaves_next ?_
  split
  · split <;> exact .of_same rfl rfl
  · exact .refl s

theorem recordUnreadable (k : SlotId) : Leaves (execRecordUnreadable k s) (Reports s) := by
  unfold execRecordUnreadable
  refine leaves_next ?_
  split <;> exact .of_same rfl rfl

end Reports

end Sys2Proof.Machine
end

section
/-! The moves of the controller (R159 to R171), the edge of the interrupt message (R172, R173) and the reset cause (R175),
over every command. -/
namespace Sys2Proof.Machine

/-! ## Moves along the state diagram -/

theorem mem_mayBecome_self (c : ControllerState) : c ∈ mayBecome c := by
  cases c <;> decide

theorem off_mem_mayBecome (c : ControllerState) : .off ∈ mayBecome c := by
  cases c <;> decide

/-- An event that moves the controller along the state diagram and at most sets causes. -/
structure Moves (s t : State) : Prop extends SetsCauses s t where
  controller : t.controller ∈ mayBecome s.controller

theorem Reports.moves {s t : State} (h : Reports s t) : Moves s t :=
  ⟨h.toSetsCauses, h.controller ▸ mem_mayBecome_self s.controller⟩

theorem Reports.trans_moves {s t u : State} (h : Reports s t) (h' : Moves t u) : Moves s u :=
  ⟨h.toSetsCauses.trans h'.toSetsCauses, h.controller ▸ h'.controller⟩

theorem Moves.trans_reports {s t u : State} (h : Moves s t) (h' : Reports t u) : Moves s u :=
  ⟨h.toSetsCauses.trans h'.toSetsCauses, h'.controller ▸ h.controller⟩

/-- A move along one edge of the diagram. -/
theorem Moves.along {s t : State} (h : SetsCauses s t) {c d : ControllerState} (hs : s.controller = c)
    (ht : t.controller = d) (edge : d ∈ mayBecome c) : Moves s t :=
  ⟨h, by rw [hs, ht]; exact edge⟩

/-! ## What moves the controller sets causes -/

theorem setsCauses_halt (s : State) (why : HaltCause) : SetsCauses s (s.halt why) := by
  by_cases h : Halts s
  · obtain ⟨m, d, e, -⟩ := State.halt_spec h why
    rw [e]
    exact .trans (.setCause s .halted) (.of_same (by rw [State.setCause_spec]; rfl))
  · rw [State.halt_of_not h]
    exact .refl s

theorem State.halt_controller {s : State} (h : Halts s) (why : HaltCause) : (s.halt why).controller = .halted := by
  obtain ⟨m, d, e, -⟩ := State.halt_spec h why
  rw [e]
  rfl

theorem setsCauses_becomeQuiesced (s : State) : SetsCauses s s.becomeQuiesced :=
  .trans (t := { s with controller := .quiesced }) (.of_same rfl) (.setCause _ _)

theorem setsCauses_resume (s : State) : SetsCauses s s.resume :=
  .trans (t := { s with controller := .running }) (.of_same rfl)
    (Reports.foldl Reports.offerSlots (List.finRange 4) _).toSetsCauses

theorem setsCauses_completeStartUp (s : State) (u : Setup) : SetsCauses s (s.completeStartUp u) := by
  have ready {t : State} (h : t.signals = s.signals) : SetsCauses s (t.setCause .ready) :=
    (SetsCauses.of_same h).trans (.setCause t .ready)
  unfold State.completeStartUp
  refine .ite (.trans ?_ (.setCause _ .quiesced)) ?_ <;> exact ready rfl

namespace Moves
variable (s : State)

theorem halt (why : HaltCause) : Moves s (s.halt why) := by
  by_cases h : Halts s
  · have halted := State.halt_controller h why
    rcases h with h | h | h | h <;> exact .along (setsCauses_halt s why) h halted (by decide)
  · rw [State.halt_of_not h]
    exact (Reports.refl s).moves

theorem teardown : Moves s s.teardown := by
  obtain ⟨m, d, e, -⟩ := s.teardown_spec
  rw [e]
  exact ⟨.of_same rfl, off_mem_mayBecome _⟩

/-- The end of start-up (R163). -/
theorem completeStartUp {s : State} (h : s.controller = .starting) (u : Setup) : Moves s (s.completeStartUp u) := by
  refine ⟨setsCauses_completeStartUp s u, ?_⟩
  rw [State.completeStartUp_controller, h]
  split <;> decide

/-- In QUIESCING the end of the last task's completion write is the end of the quiesce (R165). -/
theorem afterLastTask : Moves s s.afterLastTask := by
  have announced := Reports.announceAll s
  unfold State.afterLastTask
  split
  · dsimp only
    split
    · next hq => exact announced.trans_moves (.along (d := .quiesced) (setsCauses_becomeQuiesced _) hq rfl (by decide))
    · exact announced.moves
  · exact (Reports.refl s).moves

/-! ## CTRL writes -/

theorem beginStartUp {s : State} (h : s.controller = .off) : Moves s s.beginStartUp := by
  have started : SetsCauses s { s with controller := .starting, haltCause := .none } := .of_same rfl
  unfold State.beginStartUp
  dsimp only
  split
  · exact .along (d := .starting) (started.trans (.of_same rfl)) h rfl (by decide)
  · exact .along (started.trans (setsCauses_halt _ _)) h (State.halt_controller (.inl rfl) _) (by decide)

theorem beginQuiesce {s : State} (h : s.controller = .running) : Moves s s.beginQuiesce := by
  unfold State.beginQuiesce
  split
  · exact .along (d := .quiesced) (setsCauses_becomeQuiesced s) h rfl (by decide)
  · exact .along (d := .quiescing) (.of_same rfl) h rfl (by decide)

theorem resume {s : State} (h : s.controller = .quiescing ∨ s.controller = .quiesced) : Moves s s.resume := by
  rcases h with h | h <;> exact .along (setsCauses_resume s) h s.resume_controller (by decide)

theorem enabledWrite (before : Bool) : Moves s (s.enabledWrite before) := by
  have still := (Reports.refl s).moves
  unfold State.enabledWrite
  split
  · next h => exact beginStartUp h
  · next h =>
    split
    · exact beginQuiesce h
    · exact still
  · next h =>
    split
    · exact resume (.inl h)
    · exact still
  · next h =>
    split
    · exact resume (.inr h)
    · exact still
  · exact still
  · exact still

/-- A CTRL write with SOFT_RESET 0 (R160). -/
theorem writeCtrl {v : Register} (h : v.getLsbD 2 = false) : Moves s (s.writeCtrl v) := by
  have stored : Reports s { s with quiesceBit := v.getLsbD 1 } := .of_same rfl rfl
  cases h0 : v.getLsbD 0 with
  | true =>
    rw [State.writeCtrl_enable h h0]
    exact stored.trans_moves (enabledWrite _ _)
  | false =>
    rw [State.writeCtrl_disable h h0]
    split
    · exact stored.moves
    · exact stored.trans_moves (teardown _)

/-! ## The ends of transfers that move the controller -/

theorem resultWriteDone (n : ResultRingId) (i : RingIndex) (e : Nat) :
    Leaves (execResultWriteDone n i s e) (Moves s) := by
  have still := (Reports.refl s).moves
  unfold execResultWriteDone
  refine leaves_next ?_
  split
  · exact still
  · split
    · exact still
    · next s' hs =>
      have produced := (Reports.endDone hs).trans (.recordProduced s' n)
      dsimp only
      split
      · exact ((produced.trans (.freeSlot _ _)).trans_moves (afterLastTask _)).trans_reports (.settleDrains _)
      · exact ((produced.trans (.noticeWritten _ _ n)).trans (.settleDrains _)).moves
      · exact produced.moves

theorem resultWriteFault (n : ResultRingId) (i : RingIndex) (e : Nat) :
    Leaves (execResultWriteFault n i s e) (Moves s) := by
  have still := (Reports.refl s).moves
  unfold execResultWriteFault
  refine leaves_next ?_
  split
  · exact still
  · split
    · exact still
    · next hs => exact (Reports.endFailed hs).trans_moves (halt _ _)

theorem writebackFault (place : Place) (e : Nat) : Leaves (execWritebackFault place s e) (Moves s) := by
  unfold execWritebackFault
  refine leaves_next ?_
  split
  · exact (Reports.refl s).moves
  · next hs => exact (Reports.endFailed hs).trans_moves (halt _ _)

theorem setupReadDone (block : Block64) (e : Nat) : Leaves (execSetupReadDone block s e) (Moves s) := by
  unfold execSetupReadDone
  refine leaves_next ?_
  split
  · next hs =>
    split
    · exact Reports.moves ((Reports.endDone hs).trans (.of_same rfl rfl))
    · exact (Reports.endDone hs).trans_moves (halt _ _)
  · exact (Reports.refl s).moves

theorem setupReadFault (e : Nat) : Leaves (execSetupReadFault s e) (Moves s) := by
  unfold execSetupReadFault
  refine leaves_next ?_
  split
  · exact (Reports.refl s).moves
  · next hs => exact (Reports.endFailed hs).trans_moves (halt _ _)

theorem writebackZeroingDone (e : Nat) : Leaves (execWritebackZeroingDone s e) (Moves s) := by
  unfold execWritebackZeroingDone
  refine leaves_next ?_
  split
  · next hc hs _ =>
    have ended := Reports.endDone hs
    exact ended.trans_moves (completeStartUp (ended.controller.trans hc) _)
  · exact (Reports.refl s).moves

theorem writebackZeroingFault (e : Nat) : Leaves (execWritebackZeroingFault s e) (Moves s) := by
  unfold execWritebackZeroingFault
  refine leaves_next ?_
  split
  · exact (Reports.refl s).moves
  · next hs => exact (Reports.endFailed hs).trans_moves (halt _ _)

end Moves

/-! ## Every command -/

/-- A command resets the device: power-on reset, pin reset, or a CTRL write with SOFT_RESET 1 (R169 to R171). -/
def IsReset (c : Instr) : Prop :=
  c = .powerOnReset ∨ c = .pinReset ∨ ∃ v, ctrlWriteOf c = some v ∧ v.getLsbD 2 = true

/-- What every command does to the controller state, the messages and the reset cause. -/
structure Accounted (c : Instr) (s t : State) : Prop where
  controller : t.controller ∈ mayBecome s.controller
  messages : t.messages = messagesAfter s t.cause t.mask
  resetCause : t.resetCause = s.resetCause ∨ IsReset c

namespace Accounted
variable {c : Instr} {s t : State}

theorem of_moves (h : Moves s t) : Accounted c s t where
  controller := h.controller
  messages := h.mask ▸ h.messages
  resetCause := .inl h.resetCause

theorem of_reports (h : Reports s t) : Accounted c s t := .of_moves h.moves

/-- A write of CAUSE or MASK (R172, R173). -/
theorem signal (s : State) (cause mask : BitVec 8) : Accounted c s (s.signal cause mask) := by
  rw [State.signal_spec]
  exact ⟨mem_mayBecome_self _, rfl, .inl rfl⟩

/-- A reset leaves nothing signalled, and so sends nothing (R170, R171). -/
theorem of_reset (reset : IsReset c) (controller : t.controller = .off) (cause : t.cause = 0)
    (messages : t.messages = s.messages) : Accounted c s t where
  controller := controller ▸ off_mem_mayBecome s.controller
  messages := by rw [messages, messagesAfter_of_no_edge fun _ => by simp [cause]]
  resetCause := .inr reset

theorem writeCtrl {v : Register} (hc : ctrlWriteOf c = some v) : Accounted c s (s.writeCtrl v) := by
  cases h : v.getLsbD 2 with
  | false => exact .of_moves (.writeCtrl s h)
  | true =>
    obtain ⟨m, d, e, -⟩ := s.softReset_spec
    rw [State.writeCtrl_softReset h, e]
    exact .of_reset (.inr (.inr ⟨v, hc, h⟩)) rfl rfl rfl

theorem hardReset {why : ResetCause} (hc : IsReset c) : Accounted c s (s.hardReset why) := by
  obtain ⟨m, d, e, -⟩ := s.hardReset_spec why
  rw [e]
  exact .of_reset hc rfl rfl rfl

theorem reached {act : State → State} (h : Accounted c s (act s)) : Accounted c s (s.reached act) := by
  unfold State.reached
  split
  · exact h
  · exact .of_reports (.refl s)

theorem writeRegister {offset : BitVec 12} {v : Register}
    (hc : offset = 0x004#12 → ctrlWriteOf c = some v) : Accounted c s (s.writeRegister offset v) := by
  unfold State.writeRegister
  split
  · next h => exact .writeCtrl (hc (BitVec.eq_of_toNat_eq h))
  · exact .of_reports (.of_same rfl rfl)
  · exact .of_reports (.of_same rfl rfl)
  · exact .of_reports (.writePost s v)
  · exact .signal s _ _
  · exact .signal s _ _
  · exact .of_reports (.refl s)

end Accounted

theorem Leaves.of_reports {c : Instr} {a : Answer} {s : State} (h : Leaves a (Reports s)) : Leaves a (Accounted c s) :=
  fun t e => .of_reports (h t e)

theorem Leaves.of_moves {c : Instr} {a : Answer} {s : State} (h : Leaves a (Moves s)) : Leaves a (Accounted c s) :=
  fun t e => .of_moves (h t e)

theorem exec_accounted (c : Instr) (s : State) : Leaves (exec c s) (Accounted c s) := by
  cases c with
  | queryDevice k => exact .of_reports (.queryDevice s k)
  | createWorkRing k => exact .of_reports (.createWorkRing s k)
  | deleteWorkRing k => exact .of_reports (.deleteWorkRing s k)
  | createResultRing k => exact .of_reports (.createResultRing s k)
  | deleteResultRing k => exact .of_reports (.deleteResultRing s k)
  | openStation k => exact .of_reports (.openStation s k)
  | closeStation k => exact .of_reports (.closeStation s k)
  | readStation k => exact .of_reports (.readStation s k)
  | measure k => exact .of_reports (.measure s k)
  | freeze | thaw | reseek | setActuators | ackNotice => exact .of_reports (.homeCommand s _ _ _ _)
  | stageOpen k => exact .of_reports (.stageOpen s k)
  | stagePut k => exact .of_reports (.stagePut s k)
  | stageCommit k => exact .of_reports (.stageCommit s k)
  | stageDiscard k => exact .of_reports (.stageDiscard s k)
  | badKind k => exact .of_reports (.badKind s k)
  | recordUnreadable k => exact .of_reports (.recordUnreadable s k)
  | softReset v | startUp v | enableOff v | quiesce v | quiesceClear v => exact leaves_next (.reached (.writeCtrl rfl))
  | postWork v | releaseResult v | badOperation v => exact leaves_next (.reached (.of_reports (.writePost s v)))
  | causeClear v | maskWrite v => exact leaves_next (.reached (.signal s _ _))
  | registerWrite offset bytes v =>
    refine leaves_next (.reached ?_)
    split
    · next h => exact .writeRegister fun ho => if_pos ⟨h.1, ho⟩
    · exact .of_reports (.refl s)
  | powerOnReset =>
    obtain ⟨controller, messages, resetCause⟩ := Accounted.hardReset (s := s) (why := .powerOn) (.inl rfl)
    exact leaves_next ⟨controller, messages, resetCause⟩
  | pinReset => exact leaves_next (.hardReset (.inr (.inl rfl)))
  | linkDown | linkUp | completionTimeout _ _ => exact leaves_next (.of_reports (.of_same rfl rfl))
  | configurationSpaceWrite config =>
    exact leaves_next ⟨mem_mayBecome_self _, (messagesAfter_of_no_edge (s := s) id).symm, .inl rfl⟩
  | take => exact .of_reports (.take s)
  | recordReadDone k r e => exact .of_reports (.recordReadDone s k r e)
  | recordReadFault k e => exact .of_reports (.recordReadFault s k e)
  | gridReadDone k data e => exact .of_reports (.gridReadDone s k data e)
  | gridReadFault k e => exact .of_reports (.gridReadFault s k e)
  | snapshotWriteDone k e => exact .of_reports (.snapshotWriteDone s k e)
  | snapshotWriteFault k e => exact .of_reports (.snapshotWriteFault s k e)
  | resultWrite k => exact .of_reports (.resultWrite s k)
  | resultWriteDone n i e => exact .of_moves (.resultWriteDone s n i e)
  | resultWriteFault n i e => exact .of_moves (.resultWriteFault s n i e)
  | writebackDone place e => exact .of_reports (.writebackDone s place e)
  | writebackFault place e => exact .of_moves (.writebackFault s place e)
  | setupReadDone block e => exact .of_moves (.setupReadDone s block e)
  | setupReadFault e => exact .of_moves (.setupReadFault s e)
  | writebackZeroingDone e => exact .of_moves (.writebackZeroingDone s e)
  | writebackZeroingFault e => exact .of_moves (.writebackZeroingFault s e)
  | closeDrainEnd k => exact leaves_next (.of_reports (.endCloseDrain s k))
  | deleteDrainEnd k => exact leaves_next (.of_reports (.endDeleteDrain s k))
  | noticeEmission id => exact leaves_next (.of_reports (.emitNotice s id))

/-- Settles O8: every command either leaves the controller state, or moves it along an edge of the diagram. -/
theorem controllerMoves : Obligations.ControllerMoves := by
  unfold Obligations.ControllerMoves
  exact fun c s t e => (exec_accounted c s t e).controller

/-- Settles O13: settings of causes in one event send what one setting sends, and a reset leaves nothing signalled. -/
theorem messageAtTheEdge : Obligations.MessageAtTheEdge := by
  unfold Obligations.MessageAtTheEdge
  exact fun c s t e => (exec_accounted c s t e).messages

/-- Settles O2: the two hard resets are a teardown with every register at its reset value, and no other command but a soft
reset changes the reset cause. -/
theorem resetsClearTheDevice : Obligations.ResetsClearTheDevice := by
  unfold Obligations.ResetsClearTheDevice
  refine ⟨fun s => ?_, fun s => ?_, fun s => rfl, fun c s t e changed => ?_⟩
  · obtain ⟨m, d, e, torn⟩ := s.hardReset_spec .powerOn
    refine ⟨m, d, initialLink, true, 0, s.epoch + 1, ?_, torn⟩
    show execPowerOnReset s = _
    rw [execPowerOnReset, e]
  · obtain ⟨m, d, e, torn⟩ := s.hardReset_spec .pin
    exact ⟨m, d, s.link, s.linkIsUp, 0, s.epoch + 1, congrArg Host.Outcome.next e, torn⟩
  · exact (exec_accounted c s t e).resetCause.resolve_left changed

end Sys2Proof.Machine
end

section
/-! CTRL writes with ENABLE 1: the beginning of start-up (R161) and of a quiesce (R165). -/
namespace Sys2Proof.Machine

/-! ## The beginning of start-up (R161) -/

theorem State.setupAddress_toNat (s : State) :
    s.setupAddress.toNat = s.setupHi.toNat * 2 ^ 32 + s.setupLo.toNat := by
  rw [State.setupAddress, BitVec.toNat_append, ← Nat.shiftLeft_add_eq_or_of_lt s.setupLo.isLt, Nat.shiftLeft_eq]

theorem State.setupAddress_eq (s : State) :
    s.setupAddress = BitVec.ofNat 64 (s.setupHi.toNat * 2 ^ 32 + s.setupLo.toNat) := by
  rw [← s.setupAddress_toNat, BitVec.ofNat_toNat, BitVec.setWidth_eq]

theorem State.beginStartUp_reads {s : State} (h : (s.setupHi.toNat * 2 ^ 32 + s.setupLo.toNat) % 64 = 0) :
    s.beginStartUp = { s with
      controller := .starting
      haltCause := .none
      transfers := s.transfers ++
        [requested s .setupRead (BitVec.ofNat 64 (s.setupHi.toNat * 2 ^ 32 + s.setupLo.toNat)) (.read 64)] } := by
  rw [← s.setupAddress_eq]
  rw [← s.setupAddress_toNat] at h
  exact if_pos h

theorem State.beginStartUp_halts {s : State} (h : (s.setupHi.toNat * 2 ^ 32 + s.setupLo.toNat) % 64 ≠ 0) :
    ∃ m d, s.beginStartUp = haltedAs s .setupInvalid m d ∧ Torn (abandonedByHalt s) s.hostMemory m := by
  obtain ⟨m, d, e, torn⟩ :=
    State.halt_spec (s := { s with controller := .starting, haltCause := .none }) (.inl rfl) .setupInvalid
  rw [← s.setupAddress_toNat] at h
  exact ⟨m, d, (if_neg h).trans e, torn⟩

/-- Settles O4: by whether the setup address is a multiple of 64. -/
theorem startUpBegins : Obligations.StartUpBegins := by
  unfold Obligations.StartUpBegins
  intro s v hm h2 h0 off
  have write : exec (.startUp v) s = .next ({ s with quiesceBit := v.getLsbD 1 } : State).beginStartUp := by
    show execStartUp v s = _
    rw [execStartUp, State.reached_of_memorySpace hm, State.writeCtrl_enable h2 h0]
    unfold State.enabledWrite
    simp only [off]
  refine ⟨fun aligned => ?_, fun misaligned => ?_⟩
  · rw [write, State.beginStartUp_reads (s := { s with quiesceBit := v.getLsbD 1 }) aligned]
    rfl
  · obtain ⟨m, d, e, torn⟩ :=
      State.beginStartUp_halts (s := { s with quiesceBit := v.getLsbD 1 }) misaligned
    exact ⟨m, d, by rw [write, e], torn⟩

/-! ## The beginning of a quiesce (R165) -/

theorem State.becomeQuiesced_spec (s : State) :
    s.becomeQuiesced = { s with
      controller := .quiesced
      cause := s.cause ||| 0x20#8
      messages := messagesAfter s (s.cause ||| 0x20#8) s.mask } := by
  rw [State.becomeQuiesced, State.setCause_spec]
  rfl

/-- QUIESCE going from 0 to 1 in RUNNING begins a quiesce. -/
theorem State.enabledWrite_quiesces {s : State} (hc : s.controller = .running) (hq : s.quiesceBit = true) :
    s.enabledWrite false = s.beginQuiesce := by
  unfold State.enabledWrite
  simp only [hc, hq, Bool.not_false, Bool.and_true, if_true]

/-- A QUIESCE of 1 is only stored where the controller is not RUNNING, or the value was 1 before (R160, R164, R168). -/
theorem State.enabledWrite_keeps {s : State} {before : Bool} (off : s.controller ≠ .off) (hq : s.quiesceBit = true)
    (h : s.controller ≠ .running ∨ before = true) : s.enabledWrite before = s := by
  unfold State.enabledWrite
  split
  · next hc => exact absurd hc off
  · next hc => simp only [h.resolve_left (absurd hc), Bool.not_true, Bool.false_and, Bool.false_eq_true, if_false]
  · simp only [hq, Bool.not_true, Bool.and_false, Bool.false_eq_true, if_false]
  · simp only [hq, Bool.not_true, Bool.and_false, Bool.false_eq_true, if_false]
  · rfl
  · rfl

/-- Settles O6: the write by the controller state and the QUIESCE stored before, then by the task table. -/
theorem quiesceStopsTakes : Obligations.QuiesceStopsTakes := by
  unfold Obligations.QuiesceStopsTakes
  intro s v hm h2 h0 h1
  have write : exec (.quiesce v) s =
      .next (({ s with quiesceBit := true } : State).enabledWrite s.quiesceBit) := by
    show execQuiesce v s = _
    rw [execQuiesce, State.reached_of_memorySpace hm, State.writeCtrl_enable h2 h0, h1]
  have empty_iff := State.tableEmpty_iff { s with quiesceBit := true }
  refine ⟨fun hc hq empty => ?_, fun hc hq ⟨k, held⟩ => ?_, fun off h => ?_⟩
  · rw [write, hq, State.enabledWrite_quiesces (s := { s with quiesceBit := true }) hc rfl, State.beginQuiesce,
      if_pos (empty_iff.mpr empty), State.becomeQuiesced_spec]
    rfl
  · rw [write, hq, State.enabledWrite_quiesces (s := { s with quiesceBit := true }) hc rfl, State.beginQuiesce,
      if_neg fun empty => held (empty_iff.mp empty k)]
  · rw [write, State.enabledWrite_keeps (s := { s with quiesceBit := true }) off rfl h]

end Sys2Proof.Machine
end

section
/-! The register window (R172 to R175, R187, R188, R195): rejected POST writes, CAUSE and MASK writes, what a write at each
offset does, and what reads return. -/
namespace Sys2Proof.Machine

/-! ## Rejections, CAUSE and MASK (R172 to R174) -/

theorem State.writePost_badOperation {v : Register} (h1 : postOperation v ≠ 1#4) (h2 : postOperation v ≠ 2#4)
    (s : State) : s.writePost v = rejectedAs s v .badOperation := by
  rw [State.writePost, if_neg h1, if_neg h2, State.reject_spec]

/-- A CAUSE write sends nothing: clearing bits signals no cause that was not signalled before (R172, R173). -/
theorem State.clearCauses_spec (s : State) (v : Register) :
    s.clearCauses v = { s with cause := s.cause &&& ~~~(v.setWidth 8) } := by
  have no_edge : s.cause &&& s.mask = 0 → s.cause &&& ~~~(v.setWidth 8) &&& s.mask = 0 := fun h => by
    rw [BitVec.and_assoc, BitVec.and_comm (~~~_), ← BitVec.and_assoc, h]
    simp
  rw [State.clearCauses, State.signal_spec, messagesAfter_of_no_edge no_edge]

theorem State.writeMask_spec (s : State) (v : Register) :
    s.writeMask v = { s with
      mask := v.extractLsb' 0 8, messages := messagesAfter s s.cause (v.extractLsb' 0 8) } := by
  rw [State.writeMask, State.signal_spec, BitVec.setWidth_eq_extractLsb' (by decide)]

/-- Settles O12: the rejection as R174 records it, and the two writes as settings of CAUSE and MASK. -/
theorem rejectionCauseAndMaskWrites : Obligations.RejectionCauseAndMaskWrites := by
  unfold Obligations.RejectionCauseAndMaskWrites
  refine ⟨fun s v hm h1 h2 => ?_, fun s v hm => 
    ⟨⟨{ s with cause := s.cause &&& ~~~(v.setWidth 8) }, ?_, rfl, fun b hb => ?_⟩, ?_⟩⟩
  · show execBadOperation v s = _
    rw [execBadOperation, State.reached_of_memorySpace hm, State.writePost_badOperation h1 h2]
    rfl
  · show execCauseClear v s = _
    rw [execCauseClear, State.reached_of_memorySpace hm, State.clearCauses_spec]
  · simp [hb]
  · show execMaskWrite v s = _
    rw [execMaskWrite, State.reached_of_memorySpace hm, State.writeMask_spec]

/-! ## Writes by their offset (R187, R195) -/

theorem State.reached_of_not {s : State} (h : s.link.memorySpace = false) (act : State → State) : s.reached act = s :=
  if_neg (by rw [h]; exact Bool.false_ne_true)

/-- A write that acts on nothing changes nothing, whether it reaches the window or not. -/
theorem State.reached_of_same {s : State} {act : State → State} (h : act s = s) : s.reached act = s := by
  unfold State.reached
  rw [h, ite_self]

/-- IDENT, STATUS and every offset from 0x20 up take no write (R187). -/
theorem State.writeRegister_readOnly {offset : BitVec 12}
    (h : offset = 0x000#12 ∨ offset = 0x008#12 ∨ 0x20 ≤ offset.toNat) (s : State) (v : Register) :
    s.writeRegister offset v = s := by
  obtain ⟨ctrl, lo, hi, post, cause, mask⟩ : offset.toNat ≠ 0x04 ∧ offset.toNat ≠ 0x0C ∧ offset.toNat ≠ 0x10 ∧
      offset.toNat ≠ 0x14 ∧ offset.toNat ≠ 0x18 ∧ offset.toNat ≠ 0x1C := by
    rcases h with rfl | rfl | h
    · decide
    · decide
    · omega
  unfold State.writeRegister
  split
  · next e => exact absurd e ctrl
  · next e => exact absurd e lo
  · next e => exact absurd e hi
  · next e => exact absurd e post
  · next e => exact absurd e cause
  · next e => exact absurd e mask
  · rfl

theorem execRegisterWrite_ignored {offset : BitVec 12} {bytes : Nat} (h : ¬(bytes = 4 ∧ offset.toNat % 4 = 0))
    (v : Register) (s : State) : exec (.registerWrite offset bytes v) s = .next s :=
  congrArg Host.Outcome.next (State.reached_of_same (if_neg h))

theorem execRegisterWrite_aligned {offset : BitVec 12} (h : offset.toNat % 4 = 0) (v : Register) (s : State) :
    exec (.registerWrite offset 4 v) s = .next (s.reached (·.writeRegister offset v)) := by
  show execRegisterWrite offset 4 v s = _
  simp only [execRegisterWrite, h, and_self, if_true]

/-- Settles O14: the alignment test, the registers by their offset, and the memory-space enable. -/
theorem windowWrites : Obligations.WindowWrites := by
  unfold Obligations.WindowWrites
  refine ⟨fun s offset bytes v h => ?_, fun s offset v h => ?_, fun s v hm => ?_, fun s offset bytes v hm c hc => ?_⟩
  · exact execRegisterWrite_ignored (fun full => h.elim (· full.1) (· full.2)) v s
  · by_cases aligned : offset.toNat % 4 = 0
    · rw [execRegisterWrite_aligned aligned, State.reached_of_same (State.writeRegister_readOnly h s v)]
    · exact execRegisterWrite_ignored (fun full => aligned full.2) v s
  · refine ⟨?_, ?_, rfl, rfl, rfl, rfl⟩
    all_goals
      rw [execRegisterWrite_aligned (by decide), State.reached_of_memorySpace hm]
      rfl
  · simp only [List.mem_cons, List.not_mem_nil, or_false] at hc
    rcases hc with rfl | rfl | rfl | rfl | rfl | rfl | rfl | rfl | rfl | rfl | rfl
    all_goals exact congrArg Host.Outcome.next (State.reached_of_not hm _)

/-! ## Reads (R187, R195) -/

/-- STATUS holds six fields of four bits, the fourth and the last of them 0 (R187). -/
theorem registerBits_fields {a b c d e f : Nat} (ha : a < 16) (hb : b < 16) (hc : c < 16) (hd : d < 16) (he : e < 16)
    (hf : f < 16) {r : Register}
    (h : r = BitVec.ofNat 32 (a + 2 ^ 4 * b + 2 ^ 8 * c + 2 ^ 16 * d + 2 ^ 20 * e + 2 ^ 24 * f)) :
    registerBits r 0 4 = a ∧ registerBits r 4 4 = b ∧ registerBits r 8 4 = c ∧ registerBits r 12 4 = 0 ∧
      registerBits r 16 4 = d ∧ registerBits r 20 4 = e ∧ registerBits r 24 4 = f ∧ registerBits r 28 4 = 0 := by
  have value : r.toNat = a + 2 ^ 4 * b + 2 ^ 8 * c + 2 ^ 16 * d + 2 ^ 20 * e + 2 ^ 24 * f := by
    rw [h, BitVec.toNat_ofNat]
    omega
  simp only [registerBits, value]
  omega

theorem ControllerState.code_lt (c : ControllerState) : c.code < 16 := by cases c <;> decide
theorem ResetCause.code_lt (c : ResetCause) : c.code < 16 := by cases c <;> decide
theorem HaltCause.code_lt (c : HaltCause) : c.code < 16 := by cases c <;> decide
theorem RejectReason.code_lt (c : RejectReason) : c.code < 16 := by cases c <;> decide

theorem readStatus_fields (s : State) :
    registerBits s.readStatus 0 4 = s.controller.code ∧ registerBits s.readStatus 4 4 = s.resetCause.code ∧
      registerBits s.readStatus 8 4 = s.haltCause.code ∧ registerBits s.readStatus 12 4 = 0 ∧
      registerBits s.readStatus 16 4 = s.rejection.operation.toNat ∧
      registerBits s.readStatus 20 4 = s.rejection.reason.code ∧
      registerBits s.readStatus 24 4 = s.rejection.ringId.toNat ∧ registerBits s.readStatus 28 4 = 0 :=
  registerBits_fields s.controller.code_lt s.resetCause.code_lt s.haltCause.code_lt s.rejection.operation.isLt
    s.rejection.reason.code_lt s.rejection.ringId.isLt rfl

theorem readCtrl_fields (s : State) :
    (s.readCtrl.getLsbD 0 = true ↔ s.controller ≠ .off) ∧ s.readCtrl.getLsbD 1 = s.quiesceBit ∧
      s.readCtrl.toNat < 4 := by
  have enable : s.enableBit = true ↔ s.controller ≠ .off := decide_eq_true_iff
  rw [← enable]
  unfold State.readCtrl
  cases s.enableBit <;> cases s.quiesceBit <;> decide

/-- The register that holds a byte is the one at the offset's word. -/
theorem State.readRegister_word (s : State) (offset : BitVec 12) :
    s.readRegister (offset &&& 0xFFC#12) = s.readRegister offset := by
  have word : (offset &&& 0xFFC#12).toNat / 4 = offset.toNat / 4 := by
    have : offset.toNat >>> 2 < 2 ^ 10 := by
      rw [Nat.shiftRight_eq_div_pow]
      omega
    rw [BitVec.toNat_and, show 4 = 2 ^ 2 from rfl, ← Nat.shiftRight_eq_div_pow, ← Nat.shiftRight_eq_div_pow,
      Nat.shiftRight_and_distrib, show (0xFFC#12).toNat >>> 2 = 2 ^ 10 - 1 from rfl, Nat.and_two_pow_sub_one_eq_mod,
      Nat.mod_eq_of_lt this]
  unfold State.readRegister
  rw [word]

/-- No register from 0x20 up holds anything (R187). -/
theorem State.readRegister_unused (s : State) {offset : BitVec 12} (h : 0x20 ≤ offset.toNat) :
    s.readRegister offset = 0 := by
  have word : 8 ≤ offset.toNat / 4 := by omega
  unfold State.readRegister
  split
  iterate 7 · omega
  · rfl

theorem getElem_leBytes {n i : Nat} (v : Nat) (h : i < (leBytes n v).length) :
    (leBytes n v)[i] = BitVec.ofNat 8 (v / 256 ^ i) := by
  induction n generalizing v i with
  | zero => exact absurd h (Nat.not_lt_zero i)
  | succ n ih =>
    cases i with
    | zero => simp [leBytes]
    | succ i =>
      simp only [leBytes, List.getElem_cons_succ]
      rw [ih, Nat.div_div_eq_div_mul, pow_succ']

/-- The addressed bytes of a register, least significant first (R187). -/
theorem leBytes_addressed (r : Register) {first count : Nat} (h : first + count ≤ 4) :
    ((leBytes 4 r.toNat).drop first).take count =
      (List.range count).map fun i => r.extractLsb' (8 * (first + i)) 8 := by
  refine List.ext_getElem (by simp; omega) fun i h1 h2 => ?_
  rw [List.getElem_take, List.getElem_drop, getElem_leBytes, List.getElem_map, List.getElem_range, BitVec.extractLsb',
    Nat.shiftRight_eq_div_pow, pow_mul]
  rfl

theorem State.readBytes_register {s : State} {offset : BitVec 12} {bytes : Nat} (hm : s.link.memorySpace = true)
    (h1 : 1 ≤ bytes) (h : offset.toNat % 4 + bytes ≤ 4) :
    s.readBytes offset bytes = some ((List.range bytes).map fun i =>
      (s.readRegister (offset &&& 0xFFC#12)).extractLsb' (8 * (offset.toNat % 4 + i)) 8) := by
  rw [s.readRegister_word, ← leBytes_addressed _ h, State.readBytes, if_neg (by simp [hm]; omega), if_pos h]
  split
  · next unused =>
    have zero : (s.readRegister offset).toNat = 0 := by rw [s.readRegister_unused unused.1]; rfl
    rw [zero, leBytes_zero, List.drop_replicate, List.take_replicate, Nat.min_eq_left (by omega)]
  · rfl

theorem State.readBytes_unused {s : State} {offset : BitVec 12} {bytes : Nat} (hm : s.link.memorySpace = true)
    (h1 : 1 ≤ bytes) (h : 0x20 ≤ offset.toNat) (end_ : offset.toNat + bytes ≤ 0x1000) :
    s.readBytes offset bytes = some (List.replicate bytes 0) := by
  rw [State.readBytes, if_neg (by simp [hm]; omega), if_pos ⟨h, end_⟩]

/-- Settles O15: CTRL and STATUS field by field, the other registers by definition, and the bytes of a partial read. -/
theorem ctrlAndStatusRead : Obligations.CtrlAndStatusRead := by
  unfold Obligations.CtrlAndStatusRead
  intro s
  obtain ⟨enable, quiesce, low⟩ := readCtrl_fields s
  obtain ⟨controller, resetCause, haltCause, gap, operation, reason, ring, top⟩ := readStatus_fields s
  exact ⟨enable, quiesce, low, controller, resetCause, haltCause, gap, operation, reason, ring, top, rfl, rfl, rfl, rfl,
    BitVec.toNat_setWidth_of_le (by decide), BitVec.toNat_setWidth_of_le (by decide),
    fun offset => s.readRegister_unused,
    fun offset bytes => State.readBytes_register,
    fun offset bytes => State.readBytes_unused,
    fun offset bytes hm => if_pos (.inl hm)⟩

end Sys2Proof.Machine
end

section
/-! A halted device at rest (R140, R167, R168, R182): with no task, and nothing in flight but write-backs, no execution, take
or result write can act, and the ends of write-backs, POST writes and the link's events keep it at rest. -/
namespace Sys2Proof.Machine

/-- What a halted device at rest keeps: no task comes, nothing but write-backs is in flight, and the contexts, the sets, the
halt cause, the pointer and the run counter stay (R168, R182). -/
structure StaysAtRest (s t : State) : Prop where
  controller : t.controller = s.controller
  haltCause : t.haltCause = s.haltCause
  slots : t.slots = s.slots
  stations : t.stations = s.stations
  sets : t.sets = s.sets
  pointer : t.pointer = s.pointer
  runCounter : t.runCounter = s.runCounter
  writeBacks : ∀ x ∈ t.transfers, x.isWriteBack = true

namespace AtRestHalted
variable {s t : State} (h : AtRestHalted s)
include h

theorem stays : StaysAtRest s s := ⟨rfl, rfl, rfl, rfl, rfl, rfl, rfl, h.writeBacks⟩

/-- An event that keeps these leaves a halted device at rest. -/
theorem keep (stays : StaysAtRest s t) : AtRestHalted t where
  halted := stays.controller.trans h.halted
  slots k := by rw [stays.slots, h.slots k]
  writeBacks := stays.writeBacks

theorem not_halts : ¬Halts s := by simp [Halts, h.halted]

/-! ## What cannot act -/

theorem ready_none (k : SlotId) : s.ready k = none := by
  unfold State.ready
  rw [h.slots k]

theorem executing (k : SlotId) (kind : Nat) (act : Task → Block64 → State) : s.executing k kind act = s := by
  unfold State.executing
  rw [h.ready_none k]

theorem choose_none : s.choose = none := by
  cases hc : s.choose with
  | none => rfl
  | some c => exact absurd ((State.choose_running hc).symm.trans h.halted) (by decide)

theorem emitNotice (id : StationId) : s.emitNotice id = s :=
  State.emitNotice_of_not fun _ _ => .inr (.inl (by rw [h.halted]; decide))

theorem endCloseDrain (k : SlotId) : s.endCloseDrain k = s := by
  rcases s.endCloseDrain_cases k with e | ⟨t, r, id, c, ht, -⟩
  · exact e
  · exact absurd ((h.slots k).symm.trans ht) (Option.some_ne_none t).symm

theorem endDeleteDrain (k : SlotId) : s.endDeleteDrain k = s := by
  rcases s.endDeleteDrain_cases k with e | ⟨t, r, n, w, ht, -⟩
  · exact e
  · exact absurd ((h.slots k).symm.trans ht) (Option.some_ne_none t).symm

/-- A transfer that is no write-back is not in flight. -/
theorem not_named {kind : TransferKind} (hk : ∀ place, kind ≠ .writeBack place) (e : Nat) :
    ∀ x ∈ s.transfers, x.named kind e = false := by
  intro x hx
  have back := h.writeBacks x hx
  unfold Transfer.isWriteBack at back
  split at back
  · next place hp => simp [Transfer.named, hp, (hk place).symm]
  · cases back

theorem endFailed_none {kind : TransferKind} (hk : ∀ place, kind ≠ .writeBack place) (e : Nat) :
    s.endFailed kind e = none := State.endFailed_eq_none (h.not_named hk e)

theorem endDone_none {kind : TransferKind} (hk : ∀ place, kind ≠ .writeBack place) (e : Nat) :
    s.endDone kind e = none :=
  State.endDone_eq_none fun x hx named => absurd named (by rw [h.not_named hk e x hx]; exact Bool.false_ne_true)

theorem resultInFlight_none (n : ResultRingId) (i : RingIndex) (e : Nat) : s.resultInFlight n i e = none := by
  refine List.find?_eq_none.mpr fun x hx => ?_
  have back := h.writeBacks x hx
  unfold Transfer.isWriteBack at back
  split at back
  · next place hp => simp [Transfer.resultIndex, hp]
  · cases back

/-! ## What acts and keeps the device at rest -/

theorem without {kind : TransferKind} {e : Nat} : ∀ x ∈ Machine.without s kind e, x.isWriteBack = true :=
  fun x hx => h.writeBacks x (List.mem_of_mem_eraseP hx)

theorem endDone {kind : TransferKind} {e : Nat} (he : s.endDone kind e = some t) : StaysAtRest s t := by
  obtain ⟨x, -, -, m, rfl, -⟩ := State.endDone_eq_some he
  exact { h.stays with writeBacks := h.without }

theorem endFailed {kind : TransferKind} {e : Nat} (he : s.endFailed kind e = some t) : StaysAtRest s t := by
  obtain ⟨x, -, m, d, rfl, -⟩ := State.endFailed_eq_some he
  exact { h.stays with writeBacks := h.without }

/-- A transfer that is doomed or not keeps what it is of. -/
theorem map_transfers {f : Transfer → Transfer} (hf : ∀ x, (f x).kind = x.kind) :
    ∀ x ∈ s.transfers.map f, x.isWriteBack = true := by
  intro x hx
  obtain ⟨y, hy, rfl⟩ := List.mem_map.mp hx
  have back := h.writeBacks y hy
  unfold Transfer.isWriteBack at back ⊢
  rwa [hf y]

theorem reject (v : Register) (why : RejectReason) : StaysAtRest s (s.reject v why) := { h.stays with }

theorem postWork (v : Register) : StaysAtRest s (s.postWork v) := by
  unfold State.postWork
  split
  · exact h.reject v _
  · split
    · exact h.reject v _
    · split
      · exact h.reject v _
      · exact { h.stays with }

/-- A release in HALTED moves the released index, and no notice is emitted (R156). -/
theorem releaseResult (v : Register) : StaysAtRest s (s.releaseResult v) := by
  unfold State.releaseResult
  split
  · exact h.reject v _
  · split
    · exact h.reject v _
    · split
      · exact h.reject v _
      · split
        · exact h.stays
        · rw [State.offerSlots_of_not (by rw [State.setResultRing_controller, h.halted]; decide)
            (by rw [State.setResultRing_controller, h.halted]; decide)]
          exact { h.stays with }

theorem writePost (v : Register) : StaysAtRest s (s.writePost v) := by
  unfold State.writePost
  split
  · exact h.postWork v
  · split
    · exact h.releaseResult v
    · exact h.reject v _

theorem signal (cause mask : BitVec 8) : StaysAtRest s (s.signal cause mask) := { h.stays with }

theorem reached {act : State → State} (hact : StaysAtRest s (act s)) : StaysAtRest s (s.reached act) := by
  unfold State.reached
  split
  · exact hact
  · exact h.stays

theorem writeRegister {offset : BitVec 12} (hc : offset ≠ 0x004#12) (v : Register) :
    StaysAtRest s (s.writeRegister offset v) := by
  unfold State.writeRegister
  split
  · next e => exact absurd (BitVec.eq_of_toNat_eq e) hc
  · exact { h.stays with }
  · exact { h.stays with }
  · exact h.writePost v
  · exact h.signal _ _
  · exact h.signal _ _
  · exact h.stays

theorem writebackDone (place : Place) (e : Nat) : Leaves (execWritebackDone place s e) (StaysAtRest s) := by
  unfold execWritebackDone
  refine leaves_next ?_
  split
  · exact h.stays
  · next he => exact h.endDone he

/-- The halt request of a write-back that fails is ignored (R168, R182). -/
theorem writebackFault (place : Place) (e : Nat) : Leaves (execWritebackFault place s e) (StaysAtRest s) := by
  unfold execWritebackFault
  refine leaves_next ?_
  split
  · exact h.stays
  · next he =>
    have ended := h.endFailed he
    rwa [State.halt_of_not (h.keep ended).not_halts]

/-! ## Every command but a CTRL write and a hard reset -/

theorem idle {f : State} (e : f = s) : Leaves (.next f) (StaysAtRest s) :=
  leaves_next (e ▸ h.stays)

theorem exec_stays {c : Instr} (ctrl : ctrlWriteOf c = none) (power : c ≠ .powerOnReset) (pin : c ≠ .pinReset) :
    Leaves (exec c s) (StaysAtRest s) := by
  cases c with
  | queryDevice k | createWorkRing k | deleteWorkRing k | createResultRing k | deleteResultRing k | openStation k
  | closeStation k | readStation k | measure k | freeze k | thaw k | reseek k | setActuators k | ackNotice k
  | stageOpen k | stagePut k | stageCommit k | stageDiscard k => exact h.idle (h.executing k _ _)
  | badKind k => exact h.idle (by rw [h.ready_none k])
  | recordUnreadable k => exact h.idle (by rw [h.ready_none k])
  | softReset | startUp | enableOff | quiesce | quiesceClear => cases ctrl
  | postWork v | releaseResult v | badOperation v => exact leaves_next (h.reached (h.writePost v))
  | causeClear v | maskWrite v => exact leaves_next (h.reached (h.signal _ _))
  | registerWrite offset bytes v =>
    refine leaves_next (h.reached ?_)
    split
    · next full =>
      refine h.writeRegister (fun e => ?_) v
      rw [ctrlWriteOf, if_pos ⟨full.1, e⟩] at ctrl
      cases ctrl
    · exact h.stays
  | powerOnReset => exact absurd rfl power
  | pinReset => exact absurd rfl pin
  | linkDown => exact leaves_next { h.stays with writeBacks := h.map_transfers fun _ => rfl }
  | completionTimeout read e =>
    exact leaves_next { h.stays with writeBacks := h.map_transfers fun x => by split <;> rfl }
  | linkUp | configurationSpaceWrite _ => exact leaves_next { h.stays with }
  | take => exact h.idle (by rw [h.choose_none])
  | recordReadDone k r e => exact h.idle (by rw [h.slots k])
  | recordReadFault k e => exact h.idle (by rw [h.slots k])
  | gridReadDone k data e => exact h.idle (by rw [h.slots k])
  | gridReadFault k e => exact h.idle (by rw [h.slots k])
  | resultWrite k => exact h.idle (by rw [h.slots k])
  | snapshotWriteDone k e => exact h.idle (by rw [h.endDone_none (kind := .snapshot k) nofun])
  | snapshotWriteFault k e => exact h.idle (by rw [h.endFailed_none (kind := .snapshot k) nofun])
  | resultWriteDone n i e => exact h.idle (by rw [h.resultInFlight_none])
  | resultWriteFault n i e => exact h.idle (by rw [h.resultInFlight_none])
  | writebackDone place e => exact h.writebackDone place e
  | writebackFault place e => exact h.writebackFault place e
  | setupReadDone block e => exact h.idle (by rw [h.halted])
  | setupReadFault e => exact h.idle (by rw [h.endFailed_none (kind := .setupRead) nofun])
  | writebackZeroingDone e => exact h.idle (by rw [h.halted])
  | writebackZeroingFault e => exact h.idle (by rw [h.endFailed_none (kind := .zeroing) nofun])
  | closeDrainEnd k => exact h.idle (h.endCloseDrain k)
  | deleteDrainEnd k => exact h.idle (h.endDeleteDrain k)
  | noticeEmission id => exact h.idle (h.emitNotice id)

end AtRestHalted

/-- Settles O9: with no task and nothing but write-backs in flight, what can still act changes none of these. -/
theorem haltedKeepsItsState : Obligations.HaltedKeepsItsState := by
  unfold Obligations.HaltedKeepsItsState
  intro c s t h ctrl power pin e
  have stays := h.exec_stays ctrl power pin t e
  exact ⟨h.keep stays, stays.haltCause, stays.stations, stays.sets, stays.pointer, stays.runCounter⟩

end Sys2Proof.Machine
end

section
/-! The link's events (R176, R195): which transfers a completion timeout dooms, and what each event leaves. -/
namespace Sys2Proof.Machine

/-- The command of a read's failed end (R176). -/
def readFault (e : Nat) : ReadId → Instr
  | .setup => .setupReadFault e
  | .record k => .recordReadFault k e
  | .grid k => .gridReadFault k e

/-- A timeout names the transfers that the failed end of its read can end. -/
theorem Transfer.isRead_eq_endsFailed (read : ReadId) (e : Nat) (x : Transfer) :
    x.isRead read e = endsFailed (readFault e read) x := by
  rw [Bool.eq_iff_iff]
  cases read with
  | setup | record k | grid k =>
    cases hx : x.kind <;> simp [Transfer.isRead, readFault, endsFailed, hx]

theorem Transfer.doom_if (x : Transfer) (b : Bool) :
    (if b then x.doom else x) = { x with failing := x.failing || b } := by
  cases b with
  | false => simp
  | true => simp [Transfer.doom]

/-- A timeout dooms what the failed end of its read can end, and changes nothing else (R176). -/
theorem exec_completionTimeout (read : ReadId) (s : State) (e : Nat) :
    exec (.completionTimeout read e) s = .next { s with transfers := s.transfers.map fun x =>
      { x with failing := x.failing || endsFailed (readFault e read) x } } := by
  show execCompletionTimeout read s e = _
  simp only [execCompletionTimeout, Transfer.doom_if, Transfer.isRead_eq_endsFailed]

/-- Settles O16: the link's own events are settings of the state, and a timeout dooms what its read's failed end can end. -/
theorem linkEvents : Obligations.LinkEvents := by
  unfold Obligations.LinkEvents
  exact fun s e => ⟨rfl, rfl, fun _ => rfl, exec_completionTimeout .setup s e,
    fun k => exec_completionTimeout (.grid k) s e, fun k => exec_completionTimeout (.record k) s e⟩

end Sys2Proof.Machine
end

section
/-! The step on the queue (log entry 4). -/
namespace Sys2Proof.Machine

theorem step_of_front {s : State} {c : Instr} {rest : List Instr} (h : s.pending = c :: rest) :
    step s = exec c { s with pending := rest } := by
  rw [step, h]

theorem step_of_empty {s : State} (h : s.pending = []) : step s = .next s := by
  rw [step, h]

/-- Settles O1: the two cases of the queue. -/
theorem stepRunsFrontCommand : Obligations.StepRunsFrontCommand := by
  unfold Obligations.StepRunsFrontCommand
  exact ⟨fun _ _ _ h => step_of_front h, fun _ h => step_of_empty h⟩

end Sys2Proof.Machine
end

section
/-! The events that leave host memory as it is: all but the ends of transfers (R176) and what abandons transfers, namely
halts, enable-off and the resets (R167 to R171). -/
namespace Sys2Proof.Machine

/-! ## The shared operations -/

section memoryFrames
variable (s : State)

@[simp] theorem State.setCause_hostMemory (c : Cause) : (s.setCause c).hostMemory = s.hostMemory := rfl
@[simp] theorem State.writeBack_hostMemory (place : Place) (index : RingIndex) :
    (s.writeBack place index).hostMemory = s.hostMemory := rfl
@[simp] theorem State.answer_hostMemory (k : SlotId) (t : Task) (r : Block64) (status : Status) (body : Body) :
    (s.answer k t r status body).hostMemory = s.hostMemory := rfl
@[simp] theorem State.reject_hostMemory (value : Register) (why : RejectReason) :
    (s.reject value why).hostMemory = s.hostMemory := rfl
@[simp] theorem State.becomeQuiesced_hostMemory : s.becomeQuiesced.hostMemory = s.hostMemory := rfl

@[simp] theorem State.freeNamed_hostMemory (set : Option SetId) : (s.freeNamed set).hostMemory = s.hostMemory := by
  cases set <;> rfl

@[simp] theorem State.announce_hostMemory (n : ResultRingId) (due : ResultRing → Bool) :
    (s.announce n due).hostMemory = s.hostMemory := by
  unfold State.announce
  split
  · rfl
  · split <;> rfl

/-- Operations that each leave host memory leave it one after another. -/
theorem State.foldl_hostMemory {α : Type} {f : State → α → State} (h : ∀ s a, (f s a).hostMemory = s.hostMemory)
    (l : List α) : (l.foldl f s).hostMemory = s.hostMemory :=
  foldl_keeps (P := fun u => u.hostMemory = s.hostMemory) (fun u a hu => (h u a).trans hu) l rfl

@[simp] theorem State.announceAll_hostMemory : s.announceAll.hostMemory = s.hostMemory :=
  State.foldl_hostMemory s (fun s n => s.announce_hostMemory n _) _

@[simp] theorem State.recordProduced_hostMemory (n : ResultRingId) :
    (s.recordProduced n).hostMemory = s.hostMemory := by
  unfold State.recordProduced
  split
  · rfl
  · simp

@[simp] theorem State.emitNotice_hostMemory (id : StationId) : (s.emitNotice id).hostMemory = s.hostMemory := by
  rcases s.emitNotice_cases id with ⟨e, -⟩ | ⟨c, q, -, -, -, -, -, e⟩ <;> rw [e]

@[simp] theorem State.offerSlots_hostMemory (n : ResultRingId) : (s.offerSlots n).hostMemory = s.hostMemory := by
  refine State.foldl_hostMemory s (fun s id => ?_) _
  split
  · exact s.emitNotice_hostMemory id
  · rfl

@[simp] theorem State.resume_hostMemory : s.resume.hostMemory = s.hostMemory :=
  State.foldl_hostMemory { s with controller := .running } State.offerSlots_hostMemory _

@[simp] theorem State.endCloseDrain_hostMemory (k : SlotId) : (s.endCloseDrain k).hostMemory = s.hostMemory := by
  rcases s.endCloseDrain_cases k with e | ⟨t, r, id, c, -, -, -, -, e⟩ <;> rw [e]

@[simp] theorem State.endDeleteDrain_hostMemory (k : SlotId) : (s.endDeleteDrain k).hostMemory = s.hostMemory := by
  rcases s.endDeleteDrain_cases k with e | ⟨t, r, n, w, -, -, -, -, e⟩ <;> rw [e]

@[simp] theorem State.settleDrains_hostMemory : s.settleDrains.hostMemory = s.hostMemory :=
  State.foldl_hostMemory s (fun _ _ => by simp) _

@[simp] theorem State.freeSlot_hostMemory (k : SlotId) : (s.freeSlot k).hostMemory = s.hostMemory := by
  unfold State.freeSlot
  split
  · rfl
  · dsimp only
    split <;> rfl

@[simp] theorem State.afterLastTask_hostMemory : s.afterLastTask.hostMemory = s.hostMemory := by
  unfold State.afterLastTask
  split
  · dsimp only
    split <;> simp
  · rfl

@[simp] theorem State.noticeWritten_hostMemory (id : StationId) (n : ResultRingId) :
    (s.noticeWritten id n).hostMemory = s.hostMemory := by
  unfold State.noticeWritten
  dsimp only
  split <;> simp

@[simp] theorem State.advanceWritten_hostMemory (n : WorkRingId) : (s.advanceWritten n).hostMemory = s.hostMemory := by
  unfold State.advanceWritten
  split <;> rfl

@[simp] theorem State.holdRecord_hostMemory (k : SlotId) (t : Task) (r : Block64) :
    (s.holdRecord k t r).hostMemory = s.hostMemory := by
  unfold State.holdRecord
  split <;> rfl

@[simp] theorem State.completeStartUp_hostMemory (u : Setup) : (s.completeStartUp u).hostMemory = s.hostMemory := by
  rw [State.completeStartUp, apply_ite State.hostMemory]
  exact ite_self _

theorem State.beginQuiesce_hostMemory : s.beginQuiesce.hostMemory = s.hostMemory := by
  unfold State.beginQuiesce
  split <;> rfl

theorem State.commitAtFrame_hostMemory (k : SlotId) (t : Task) (r : Block64) (q : CommitRequest) :
    (s.commitAtFrame k t r q).hostMemory = s.hostMemory := by
  unfold State.commitAtFrame
  dsimp only
  split
  · rfl
  · split <;> rfl

theorem State.commitImmediate_hostMemory (k : SlotId) (t : Task) (r : Block64) (q : CommitRequest) :
    (s.commitImmediate k t r q).hostMemory = s.hostMemory := by
  unfold State.commitImmediate
  dsimp only
  split <;> rfl

/-! ## The register window but for CTRL -/

theorem State.postWork_hostMemory (value : Register) : (s.postWork value).hostMemory = s.hostMemory := by
  unfold State.postWork
  split
  · rfl
  · split
    · rfl
    · split <;> rfl

theorem State.releaseResult_hostMemory (value : Register) : (s.releaseResult value).hostMemory = s.hostMemory := by
  unfold State.releaseResult
  split
  · rfl
  · split
    · rfl
    · split
      · rfl
      · split
        · rfl
        · simp

theorem State.writePost_hostMemory (value : Register) : (s.writePost value).hostMemory = s.hostMemory := by
  unfold State.writePost
  split
  · exact s.postWork_hostMemory value
  · split
    · exact s.releaseResult_hostMemory value
    · rfl

theorem State.writeRegister_hostMemory {offset : BitVec 12} (notCtrl : offset ≠ 0x004#12) (value : Register) :
    (s.writeRegister offset value).hostMemory = s.hostMemory := by
  unfold State.writeRegister
  split
  · next e => exact absurd (BitVec.eq_of_toNat_eq e) notCtrl
  · rfl
  · rfl
  · exact s.writePost_hostMemory value
  · rfl
  · rfl
  · rfl

theorem State.reached_hostMemory {act : State → State} (h : (act s).hostMemory = s.hostMemory) :
    (s.reached act).hostMemory = s.hostMemory := by
  unfold State.reached
  split
  · exact h
  · rfl

end memoryFrames

/-! ## The commands -/

section commands
variable (s : State)

theorem execTake_hostMemory : Leaves (execTake s) fun t => t.hostMemory = s.hostMemory := by
  unfold execTake
  refine leaves_next ?_
  split
  · split
    · rfl
    · split <;> rfl
  · rfl

theorem execResultWrite_hostMemory (k : SlotId) :
    Leaves (execResultWrite k s) fun t => t.hostMemory = s.hostMemory := by
  unfold execResultWrite
  refine leaves_next ?_
  split
  · rfl
  · split
    · split
      · rfl
      · split
        · rfl
        · split <;> rfl
    all_goals rfl

theorem execBadKind_hostMemory (k : SlotId) : Leaves (execBadKind k s) fun t => t.hostMemory = s.hostMemory := by
  unfold execBadKind
  refine leaves_next ?_
  split
  · split <;> rfl
  · rfl

theorem execRecordUnreadable_hostMemory (k : SlotId) :
    Leaves (execRecordUnreadable k s) fun t => t.hostMemory = s.hostMemory := by
  unfold execRecordUnreadable
  refine leaves_next ?_
  split <;> rfl

theorem execOpenStation_hostMemory (k : SlotId) :
    Leaves (execOpenStation k s) fun t => t.hostMemory = s.hostMemory :=
  executing_leaves rfl fun t r => by
    split
    · rfl
    · dsimp only
      split <;> simp

theorem execStageCommit_hostMemory (k : SlotId) :
    Leaves (execStageCommit k s) fun t => t.hostMemory = s.hostMemory :=
  executing_leaves rfl fun t r => by
    split
    · rfl
    · split
      · exact s.commitAtFrame_hostMemory ..
      · exact s.commitImmediate_hostMemory ..

theorem execStageDiscard_hostMemory (k : SlotId) :
    Leaves (execStageDiscard k s) fun t => t.hostMemory = s.hostMemory :=
  executing_leaves rfl fun t r => by
    split
    · rfl
    · split
      · rfl
      · rfl
      · split <;> rfl

/-- Whatever is no end of a transfer, no CTRL write and no hard reset leaves host memory: an execution at most begins a
write, which reaches host memory at its end. -/
theorem exec_hostMemory {i : Instr} (ends : isEnd i = false) (ctrl : ctrlWriteOf i = none) (power : i ≠ .powerOnReset)
    (pin : i ≠ .pinReset) : Leaves (exec i s) fun t => t.hostMemory = s.hostMemory := by
  cases i with
  | recordReadDone | recordReadFault | gridReadDone | gridReadFault | snapshotWriteDone | snapshotWriteFault
  | resultWriteDone | resultWriteFault | writebackDone | writebackFault | setupReadDone | setupReadFault
  | writebackZeroingDone | writebackZeroingFault => cases ends
  | softReset | startUp | enableOff | quiesce | quiesceClear => cases ctrl
  | powerOnReset => exact absurd rfl power
  | pinReset => exact absurd rfl pin
  | queryDevice | createWorkRing | createResultRing | deleteResultRing | readStation | measure | freeze | thaw | reseek
  | setActuators | ackNotice | stageOpen | stagePut =>
    exact executing_leaves rfl fun t r => by split <;> rfl
  | deleteWorkRing | closeStation => exact executing_leaves rfl fun t r => by split <;> simp
  | openStation k => exact execOpenStation_hostMemory s k
  | stageCommit k => exact execStageCommit_hostMemory s k
  | stageDiscard k => exact execStageDiscard_hostMemory s k
  | badKind k => exact execBadKind_hostMemory s k
  | recordUnreadable k => exact execRecordUnreadable_hostMemory s k
  | postWork v | releaseResult v | badOperation v =>
    exact leaves_next (s.reached_hostMemory (s.writePost_hostMemory v))
  | causeClear | maskWrite => exact leaves_next (s.reached_hostMemory rfl)
  | registerWrite offset bytes v =>
    refine leaves_next (s.reached_hostMemory ?_)
    split
    · next full =>
      refine s.writeRegister_hostMemory (fun e => ?_) v
      rw [ctrlWriteOf, if_pos ⟨full.1, e⟩] at ctrl
      cases ctrl
    · rfl
  | linkDown | linkUp | completionTimeout | configurationSpaceWrite => exact leaves_next rfl
  | take => exact execTake_hostMemory s
  | resultWrite k => exact execResultWrite_hostMemory s k
  | closeDrainEnd k => exact leaves_next (s.endCloseDrain_hostMemory k)
  | deleteDrainEnd k => exact leaves_next (s.endDeleteDrain_hostMemory k)
  | noticeEmission id => exact leaves_next (s.emitNotice_hostMemory id)

end commands

end Sys2Proof.Machine
end

section
/-! The canonical form of host memory (log entry 10) through the events that change host memory: the ends of transfers,
halts and teardowns. -/
namespace Sys2Proof.Machine

section canonical
variable {s : State} (h : s.hostMemory.wf = true)
include h

/-! ## Writes that end or are abandoned -/

theorem State.writePart_wf (x : Transfer) : (s.writePart x).hostMemory.wf = true := by
  unfold State.writePart
  split
  · exact h
  · split
    · exact h
    · exact Memory.writePart_wf h ..

theorem State.endDone_wf {t : State} {kind : TransferKind} {e : Nat} (he : s.endDone kind e = some t) :
    t.hostMemory.wf = true := by
  obtain ⟨x, -, -, m, rfl, ⟨data, -, rfl⟩ | ⟨-, rfl⟩⟩ := State.endDone_eq_some he
  · exact Memory.writeBytes_wf h _ _
  · exact h

theorem State.endFailed_wf {t : State} {kind : TransferKind} {e : Nat} (he : s.endFailed kind e = some t) :
    t.hostMemory.wf = true := by
  obtain ⟨x, hx, -⟩ := State.endFailed_eq_some he
  rw [State.endFailed_of_find hx] at he
  cases he
  exact State.writePart_wf (s := s.dropTransfer kind e) h x

theorem State.abandon_wf (keep : Transfer → Bool) : (s.abandon keep).hostMemory.wf = true :=
  foldl_keeps (P := fun u => u.hostMemory.wf = true) (fun _ x hu => State.writePart_wf hu x) _ h

theorem State.halt_wf (why : HaltCause) : (s.halt why).hostMemory.wf = true := by
  unfold State.halt
  split
  · exact h
  · exact h
  all_goals exact State.abandon_wf h _

theorem State.teardown_wf : s.teardown.hostMemory.wf = true := State.abandon_wf h _

/-! ## CTRL writes -/

theorem State.beginStartUp_wf : s.beginStartUp.hostMemory.wf = true := by
  have started : ({ s with controller := .starting, haltCause := .none } : State).hostMemory.wf = true := h
  unfold State.beginStartUp
  dsimp only
  split
  · exact started
  · exact State.halt_wf started _

theorem State.enabledWrite_wf (before : Bool) : (s.enabledWrite before).hostMemory.wf = true := by
  unfold State.enabledWrite
  split
  · exact State.beginStartUp_wf h
  · split
    · rwa [State.beginQuiesce_hostMemory]
    · exact h
  · split
    · rwa [State.resume_hostMemory]
    · exact h
  · split
    · rwa [State.resume_hostMemory]
    · exact h
  · exact h
  · exact h

theorem State.writeCtrl_wf (value : Register) : (s.writeCtrl value).hostMemory.wf = true := by
  have stored : ({ s with quiesceBit := ctrlQuiesce value } : State).hostMemory.wf = true := h
  unfold State.writeCtrl
  split
  · exact State.teardown_wf h
  · dsimp only
    split
    · exact State.enabledWrite_wf stored _
    · split
      · exact stored
      · exact State.teardown_wf stored

theorem State.reached_writeCtrl_wf (value : Register) : (s.reached (·.writeCtrl value)).hostMemory.wf = true := by
  unfold State.reached
  split
  · exact State.writeCtrl_wf h value
  · exact h

/-- A command that writes CTRL (R160, R187). -/
theorem exec_ctrlWrite_wf {i : Instr} {v : Register} (hi : ctrlWriteOf i = some v) :
    Leaves (exec i s) fun t => t.hostMemory.wf = true := by
  cases i with
  | softReset | startUp | enableOff | quiesce | quiesceClear =>
    cases hi
    exact leaves_next (State.reached_writeCtrl_wf h v)
  | registerWrite offset bytes w =>
    rw [ctrlWriteOf] at hi
    split at hi
    · next full =>
      obtain ⟨rfl, rfl⟩ := full
      cases hi
      exact leaves_next (State.reached_writeCtrl_wf h v)
    · cases hi
  | _ => cases hi

/-! ## The ends of transfers -/

theorem execRecordReadDone_wf (k : SlotId) (r : Block64) (e : Nat) :
    Leaves (execRecordReadDone k r s e) fun t => t.hostMemory.wf = true := by
  unfold execRecordReadDone
  refine leaves_next ?_
  split
  · exact h
  · split
    · split
      · exact h
      · next he => simpa using State.endDone_wf h he
    all_goals exact h

theorem execRecordReadFault_wf (k : SlotId) (e : Nat) :
    Leaves (execRecordReadFault k s e) fun t => t.hostMemory.wf = true := by
  unfold execRecordReadFault
  refine leaves_next ?_
  split
  · exact h
  · split
    · split
      · exact h
      · next he =>
        have ended := State.endFailed_wf h he
        rw [State.advanceWritten_hostMemory]
        split <;> exact ended
    all_goals exact h

theorem execGridReadDone_wf (k : SlotId) (data : List Byte) (e : Nat) :
    Leaves (execGridReadDone k data s e) fun t => t.hostMemory.wf = true := by
  unfold execGridReadDone
  refine leaves_next ?_
  split
  · exact h
  · split
    · split
      · exact h
      · next he =>
        split
        · rw [State.setSlot_hostMemory]
          exact State.endDone_wf h he
        · exact h
    all_goals exact h

theorem execGridReadFault_wf (k : SlotId) (e : Nat) :
    Leaves (execGridReadFault k s e) fun t => t.hostMemory.wf = true := by
  unfold execGridReadFault
  refine leaves_next ?_
  split
  · exact h
  · split
    · split
      · exact h
      · next he =>
        rw [State.setSlot_hostMemory]
        exact State.endFailed_wf h he
    all_goals exact h

theorem execSnapshotWriteDone_wf (k : SlotId) (e : Nat) :
    Leaves (execSnapshotWriteDone k s e) fun t => t.hostMemory.wf = true := by
  unfold execSnapshotWriteDone
  refine leaves_next ?_
  split
  · exact h
  · next he => exact State.endDone_wf h he

theorem execSnapshotWriteFault_wf (k : SlotId) (e : Nat) :
    Leaves (execSnapshotWriteFault k s e) fun t => t.hostMemory.wf = true := by
  unfold execSnapshotWriteFault
  refine leaves_next ?_
  split
  · exact h
  · next he =>
    rw [State.setSlot_hostMemory]
    exact State.endFailed_wf h he

theorem execResultWriteDone_wf (n : ResultRingId) (i : RingIndex) (e : Nat) :
    Leaves (execResultWriteDone n i s e) fun t => t.hostMemory.wf = true := by
  unfold execResultWriteDone
  refine leaves_next ?_
  split
  · exact h
  · split
    · exact h
    · next he =>
      have ended := State.endDone_wf h he
      dsimp only
      split <;> simpa using ended

theorem execResultWriteFault_wf (n : ResultRingId) (i : RingIndex) (e : Nat) :
    Leaves (execResultWriteFault n i s e) fun t => t.hostMemory.wf = true := by
  unfold execResultWriteFault
  refine leaves_next ?_
  split
  · exact h
  · split
    · exact h
    · next he => exact State.halt_wf (State.endFailed_wf h he) _

theorem execWritebackDone_wf (place : Place) (e : Nat) :
    Leaves (execWritebackDone place s e) fun t => t.hostMemory.wf = true := by
  unfold execWritebackDone
  refine leaves_next ?_
  split
  · exact h
  · next he => exact State.endDone_wf h he

theorem execWritebackFault_wf (place : Place) (e : Nat) :
    Leaves (execWritebackFault place s e) fun t => t.hostMemory.wf = true := by
  unfold execWritebackFault
  refine leaves_next ?_
  split
  · exact h
  · next he => exact State.halt_wf (State.endFailed_wf h he) _

theorem execSetupReadDone_wf (block : Block64) (e : Nat) :
    Leaves (execSetupReadDone block s e) fun t => t.hostMemory.wf = true := by
  unfold execSetupReadDone
  refine leaves_next ?_
  split
  · next he =>
    have ended := State.endDone_wf h he
    split
    · exact ended
    · exact State.halt_wf ended _
  · exact h

theorem execSetupReadFault_wf (e : Nat) : Leaves (execSetupReadFault s e) fun t => t.hostMemory.wf = true := by
  unfold execSetupReadFault
  refine leaves_next ?_
  split
  · exact h
  · next he => exact State.halt_wf (State.endFailed_wf h he) _

theorem execWritebackZeroingDone_wf (e : Nat) :
    Leaves (execWritebackZeroingDone s e) fun t => t.hostMemory.wf = true := by
  unfold execWritebackZeroingDone
  refine leaves_next ?_
  split
  · next he _ => simpa using State.endDone_wf h he
  · exact h

theorem execWritebackZeroingFault_wf (e : Nat) :
    Leaves (execWritebackZeroingFault s e) fun t => t.hostMemory.wf = true := by
  unfold execWritebackZeroingFault
  refine leaves_next ?_
  split
  · exact h
  · next he => exact State.halt_wf (State.endFailed_wf h he) _

theorem exec_end_wf {i : Instr} (hi : isEnd i = true) : Leaves (exec i s) fun t => t.hostMemory.wf = true := by
  cases i with
  | recordReadDone k r e => exact execRecordReadDone_wf h k r e
  | recordReadFault k e => exact execRecordReadFault_wf h k e
  | gridReadDone k data e => exact execGridReadDone_wf h k data e
  | gridReadFault k e => exact execGridReadFault_wf h k e
  | snapshotWriteDone k e => exact execSnapshotWriteDone_wf h k e
  | snapshotWriteFault k e => exact execSnapshotWriteFault_wf h k e
  | resultWriteDone n j e => exact execResultWriteDone_wf h n j e
  | resultWriteFault n j e => exact execResultWriteFault_wf h n j e
  | writebackDone place e => exact execWritebackDone_wf h place e
  | writebackFault place e => exact execWritebackFault_wf h place e
  | setupReadDone block e => exact execSetupReadDone_wf h block e
  | setupReadFault e => exact execSetupReadFault_wf h e
  | writebackZeroingDone e => exact execWritebackZeroingDone_wf h e
  | writebackZeroingFault e => exact execWritebackZeroingFault_wf h e
  | _ => cases hi

/-! ## Every command -/

/-- The commands that can change host memory, and all the others. -/
theorem exec_wf (i : Instr) : Leaves (exec i s) fun t => t.hostMemory.wf = true := by
  cases ends : isEnd i with
  | true => exact exec_end_wf h ends
  | false =>
    cases ctrl : ctrlWriteOf i with
    | some v => exact exec_ctrlWrite_wf h ctrl
    | none =>
      by_cases power : i = .powerOnReset
      · subst power
        exact leaves_next (State.teardown_wf h)
      · by_cases pin : i = .pinReset
        · subst pin
          exact leaves_next (State.teardown_wf h)
        · intro t e
          rw [exec_hostMemory s ends ctrl power pin t e]
          exact h

end canonical

/-- Settles O60: only ends of transfers, CTRL writes and hard resets change host memory, and they change it by whole and
partial writes, each of which keeps the form. -/
theorem hostMemoryStaysCanonical : Obligations.HostMemoryStaysCanonical := by
  unfold Obligations.HostMemoryStaysCanonical
  exact fun s t h e =>
    step_keeps (P := fun u => u.hostMemory.wf = true) (fun _ _ hu => hu) (fun i _ hu => exec_wf hu i) h e

end Sys2Proof.Machine
end

section
/-! What most events leave of the rings, the task table and the writers of results: the frame that the invariants of the
work rings, the task table and the result rings rest on (R118 to R132, R142 to R147). -/
namespace Sys2Proof.Machine

/-! ## What the invariants look at -/

/-- A transfer that writes a record to a result ring. -/
def TransferKind.isResult : TransferKind → Bool
  | .completion _ _ _ | .notice _ _ _ => true
  | .setupRead | .zeroing | .recordRead _ _ _ | .gridRead _ | .snapshot _ | .writeBack _ => false

/-- The result writes in flight, in order of issue. -/
def State.resultWrites (s : State) : List TransferKind := (s.transfers.map Transfer.kind).filter TransferKind.isResult

/-- A task is in WRITING. -/
def Task.isWriting (t : Task) : Bool :=
  match t.phase with
  | .writing _ _ _ => true
  | .reading | .fetching _ | .queued _ | .drainWait _ _ => false

/-- A work ring without its state, its base and its written taken index. -/
def WorkRing.footing (w : WorkRing) : WorkRing := { w with state := .active, base := 0, written := 0 }

/-- A result ring without its base, its threshold and its unsignalled count. -/
def ResultRing.footing (q : ResultRing) : ResultRing := { q with base := 0, threshold := 0, unsignalled := 0 }

/-- A context that holds a station notifying on a ring, with a NOTICE in flight. -/
def Context.Notifies (n : ResultRingId) (x : Context) : Prop :=
  ∃ c, x.station = some c ∧ c.noticeRing = n ∧ c.noticeInFlight = true

/-- The notice ring of a station with its mark. -/
def Station.noticing (c : Station) : ResultRingId × Bool := (c.noticeRing, c.noticeInFlight)

/-- A slot keeps its task's ring, and a task in WRITING stays there. -/
structure SlotKept (x y : Option Task) : Prop where
  ring : y.map Task.ring = x.map Task.ring
  writing : ∀ t, x = some t → t.isWriting = true → ∃ u, y = some u ∧ u.isWriting = true

/-- An event that leaves the arbiter, the indexes and counts of every ring and the tasks of every ring, requests no result
write, and leaves every writer that still has a result write in flight. -/
structure Steady (s t : State) : Prop where
  pointer : t.pointer = s.pointer
  runCounter : t.runCounter = s.runCounter
  heldSetup : ∀ u, t.heldSetup = some u → s.heldSetup = some u
  workRings : ∀ n : WorkRingId, (t.workRings[n]).map WorkRing.footing = (s.workRings[n]).map WorkRing.footing
  resultRings : ∀ n : ResultRingId, (t.resultRings[n]).map ResultRing.footing = (s.resultRings[n]).map ResultRing.footing
  slots : ∀ k : SlotId, SlotKept s.slots[k] t.slots[k]
  resultWrites : t.resultWrites.Sublist s.resultWrites
  notices : ∀ id n i, .notice id n i ∈ t.resultWrites → (s.stations[id]).Notifies n → (t.stations[id]).Notifies n

theorem SlotKept.refl (x : Option Task) : SlotKept x x := ⟨rfl, fun t h hw => ⟨t, h, hw⟩⟩

theorem SlotKept.trans {x y z : Option Task} (h : SlotKept x y) (h' : SlotKept y z) : SlotKept x z where
  ring := h'.ring.trans h.ring
  writing t ht hw := by
    obtain ⟨u, hu, huw⟩ := h.writing t ht hw
    exact h'.writing u hu huw

theorem Context.Notifies.opened {n : ResultRingId} {c d : Station} (h : (Context.opened c).Notifies n)
    (e : d.noticing = c.noticing) : (Context.opened d).Notifies n := by
  obtain ⟨_, ⟨⟩, ring, mark⟩ := h
  obtain ⟨hr, hm⟩ := Prod.mk.inj e
  exact ⟨d, rfl, hr.trans ring, hm.trans mark⟩

/-! ## The frame -/

namespace Steady
variable {s t u : State}

theorem refl (s : State) : Steady s s where
  pointer := rfl
  runCounter := rfl
  heldSetup _ h := h
  workRings _ := rfl
  resultRings _ := rfl
  slots _ := .refl _
  resultWrites := .refl _
  notices _ _ _ _ h := h

theorem trans (h : Steady s t) (h' : Steady t u) : Steady s u where
  pointer := h'.pointer.trans h.pointer
  runCounter := h'.runCounter.trans h.runCounter
  heldSetup v hv := h.heldSetup v (h'.heldSetup v hv)
  workRings n := (h'.workRings n).trans (h.workRings n)
  resultRings n := (h'.resultRings n).trans (h.resultRings n)
  slots k := (h.slots k).trans (h'.slots k)
  resultWrites := h'.resultWrites.trans h.resultWrites
  notices id n i hi hn := h'.notices id n i hi (h.notices id n i (h'.resultWrites.subset hi) hn)

theorem foldl {α : Type} {f : State → α → State} (h : ∀ s a, Steady s (f s a)) (l : List α) (s : State) :
    Steady s (l.foldl f s) := by
  induction l generalizing s with
  | nil => exact .refl s
  | cons a rest ih => exact (h s a).trans (ih _)

/-! ## One bank written -/

theorem setSlot {k : SlotId} {x y : Task} (h : s.slots[k] = some x) (ring : y.ring = x.ring)
    (writing : x.isWriting = true → y.isWriting = true) : Steady s (s.setSlot k (some y)) :=
  { refl s with
    slots := fun j => by
      rw [State.setSlot_slots, get_set]
      split
      · next hj =>
        subst hj
        exact ⟨by simp [h, ring], fun u hu hw => ⟨y, rfl, writing (by cases h.symm.trans hu; exact hw)⟩⟩
      · exact .refl _ }

theorem setWorkRing {n : WorkRingId} {w v : WorkRing} (h : s.workRings[n] = some w) (e : v.footing = w.footing) :
    Steady s (s.setWorkRing n (some v)) :=
  { refl s with
    workRings := fun m => by
      rw [State.setWorkRing_workRings, get_set]
      split
      · next hm => rw [← hm, h, Option.map_some, Option.map_some, e]
      · rfl }

theorem setResultRing {n : ResultRingId} {q p : ResultRing} (h : s.resultRings[n] = some q) (e : p.footing = q.footing) :
    Steady s (s.setResultRing n (some p)) :=
  { refl s with
    resultRings := fun m => by
      rw [State.setResultRing_resultRings, get_set]
      split
      · next hm => rw [← hm, h, Option.map_some, Option.map_some, e]
      · rfl }

theorem setStation {id : StationId} {x : Context}
    (h : ∀ n i, .notice id n i ∈ s.resultWrites → (s.stations[id]).Notifies n → x.Notifies n) :
    Steady s (s.setStation id x) :=
  { refl s with
    notices := fun j n i hi hn => by
      rw [State.setStation_stations, get_set]
      split
      · next hj =>
        subst hj
        exact h n i hi hn
      · exact hn }

theorem setSet (s : State) (i : SetId) (x : StagingSet) : Steady s (s.setSet i x) := { refl s with }

theorem setOpened {id : StationId} {c d : Station} (hc : s.stations[id] = .opened c) (e : d.noticing = c.noticing) :
    Steady s (s.setStation id (.opened d)) :=
  setStation fun _ _ _ hn => (hc ▸ hn).opened e

/-- A station changed after a change that leaves it. -/
theorem opened (h : Steady s t) {id : StationId} {c d : Station} (hc : t.stations[id] = .opened c)
    (e : d.noticing = c.noticing) : Steady s (t.setStation id (.opened d)) :=
  h.trans (setOpened hc e)

/-! ## Transfers -/

theorem transfers {l : List Transfer} (h : ((l.map Transfer.kind).filter TransferKind.isResult).Sublist s.resultWrites) :
    Steady s { s with transfers := l } :=
  { refl s with resultWrites := h, notices := fun _ _ _ _ hn => hn }

theorem issue {kind : TransferKind} (h : kind.isResult = false) (a : Address) (p : Payload) :
    Steady s (s.issue kind a p) :=
  transfers (by simp [State.resultWrites, h])

theorem without (s : State) (kind : TransferKind) (e : Nat) : Steady s { s with transfers := Machine.without s kind e } :=
  transfers (((List.eraseP_sublist).map _).filter _)

theorem endDone {kind : TransferKind} {e : Nat} (h : s.endDone kind e = some t) : Steady s t := by
  obtain ⟨x, -, -, m, rfl, -⟩ := State.endDone_eq_some h
  exact { without s kind e with }

theorem endFailed {kind : TransferKind} {e : Nat} (h : s.endFailed kind e = some t) : Steady s t := by
  obtain ⟨x, -, m, d, rfl, -⟩ := State.endFailed_eq_some h
  exact { without s kind e with }

/-- A change of what a transfer's end can be. -/
theorem mapTransfers (s : State) {f : Transfer → Transfer} (h : ∀ x, (f x).kind = x.kind) :
    Steady s { s with transfers := s.transfers.map f } :=
  transfers (by rw [List.map_map, show Transfer.kind ∘ f = Transfer.kind from funext h]; exact .refl _)

theorem writeBack (s : State) (place : Place) (index : RingIndex) : Steady s (s.writeBack place index) := issue rfl _ _

/-! ## Answers -/

theorem answer {k : SlotId} {x : Task} (h : s.slots[k] = some x) (r : Block64) (status : Status) (body : Body) :
    Steady s (s.answer k x r status body) :=
  setSlot h rfl fun _ => rfl

theorem answerStage {k : SlotId} {x : Task} (h : s.slots[k] = some x) (r : Block64) (status : Status) (n : Nat)
    (extra : StageExtra) : Steady s (s.answerStage k x r status n extra) :=
  answer h r status _

/-- A change that leaves the slots, and then the answer of a task. -/
theorem answered (h : Steady s t) {k : SlotId} {x : Task} (held : t.slots[k] = some x) {r : Block64} {status : Status}
    {body : Body} : Steady s (t.answer k x r status body) :=
  h.trans (answer held r status body)

theorem answeredStage (h : Steady s t) {k : SlotId} {x : Task} (held : t.slots[k] = some x) {r : Block64}
    {status : Status} {n : Nat} {extra : StageExtra} : Steady s (t.answerStage k x r status n extra) :=
  h.answered held

theorem executing {k : SlotId} {kind : Nat} {act : Task → Block64 → State}
    (h : ∀ x r, Runs s k x r kind → Steady s (act x r)) : Steady s (s.executing k kind act) := by
  rcases s.executing_cases k kind act with e | ⟨x, r, hr, e⟩
  · rw [e]
    exact .refl s
  · rw [e]
    exact h x r hr

/-! ## The shared operations -/

theorem announce (s : State) (n : ResultRingId) (due : ResultRing → Bool) : Steady s (s.announce n due) := by
  unfold State.announce
  split
  · exact .refl s
  · next q hq =>
    split
    · exact (setResultRing (p := { q with unsignalled := 0 }) hq rfl).trans { refl _ with }
    · exact .refl s

theorem announceAll (s : State) : Steady s s.announceAll := foldl (fun s n => announce s n _) _ s

theorem afterLastTask (s : State) : Steady s s.afterLastTask := by
  unfold State.afterLastTask
  split
  · dsimp only
    split
    · exact (announceAll s).trans { refl _ with }
    · exact announceAll s
  · exact .refl s

theorem advanceWritten (s : State) (n : WorkRingId) : Steady s (s.advanceWritten n) := by
  unfold State.advanceWritten
  split
  · exact .refl s
  · next w hw =>
    refine .trans ?_ (writeBack _ _ _)
    exact setWorkRing hw rfl

theorem holdRecord {k : SlotId} {x : Task} (h : s.slots[k] = some x) (hp : x.phase = .reading) (r : Block64) :
    Steady s (s.holdRecord k x r) := by
  have waits : x.isWriting = false := by simp [Task.isWriting, hp]
  unfold State.holdRecord
  split
  · refine .trans ?_ (issue rfl _ _)
    exact setSlot h rfl (by simp [waits])
  · exact setSlot h rfl (by simp [waits])

/-- The station of a close that has ended had no NOTICE in flight (R10). -/
theorem endCloseDrain (s : State) (k : SlotId) : Steady s (s.endCloseDrain k) := by
  rcases s.endCloseDrain_cases k with e | ⟨x, r, id, c, hx, -, hc, hn, e⟩
  · rw [e]
    exact .refl s
  · rw [e]
    have closed : Steady s (s.setStation id .free) := setStation fun n i _ h => by
      obtain ⟨d, hd, -, mark⟩ := h
      rw [hc] at hd
      cases hd
      exact absurd mark (by simp [hn])
    have ended : Steady (s.setStation id .free)
        ((s.setStation id .free).answer k x r .ok (.closeStation c.armed.length c.measures c.decisions c.skipped)) :=
      answer (s := s.setStation id .free) hx _ _ _
    exact (closed.trans ended).trans { refl _ with }

/-- A NOTICE of the station that is still in flight keeps its mark (R155). -/
theorem noticeWritten (s : State) (id : StationId) (n : ResultRingId) : Steady s (s.noticeWritten id n) := by
  have marked : Steady s
      (s.setStation id (s.stations[id].update fun c => { c with noticeInFlight := s.noticePending id })) :=
    setStation fun m i hi h => by
      obtain ⟨c, hc, ring, -⟩ := h
      have pending : s.noticePending id = true := by
        obtain ⟨y, hy, hk⟩ := List.mem_map.mp (List.mem_of_mem_filter hi)
        exact (s.noticePending_iff id).mpr ⟨y, hy, m, i, hk⟩
      refine ⟨{ c with noticeInFlight := s.noticePending id }, ?_, ring, pending⟩
      cases hx : s.stations[id] with
      | free => rw [hx] at hc; cases hc
      | opened d => rw [hx] at hc; cases hc; rfl
      | closing d => rw [hx] at hc; cases hc; rfl
  unfold State.noticeWritten
  dsimp only
  split
  · exact marked.trans (announce _ n _)
  · exact marked

theorem reject (s : State) (value : Register) (why : RejectReason) : Steady s (s.reject value why) := { refl s with }

theorem freeNamed (s : State) (set : Option SetId) : Steady s (s.freeNamed set) := by
  cases set with
  | none => exact .refl s
  | some i => exact setSet s i .free

end Steady

end Sys2Proof.Machine
end

section
/-! An evaluation and the other station commands leave the notice ring of a station and its mark of a NOTICE in flight
(R155): they are set when the station opens and at the emission and the end of its NOTICEs. -/
namespace Sys2Proof.Machine

section noticing
variable (c : Station) (f : Frame)

@[simp] theorem Station.raiseAll_noticing (ks : List Condition) : (c.raiseAll ks).noticing = c.noticing := by
  induction ks generalizing c with
  | nil => rfl
  | cons k rest ih => exact ih (c.raise k)

theorem Station.push_noticing (x : Frame) (e : Entry) : (c.push x e).noticing = c.noticing := by
  unfold Station.push
  split <;> rfl

theorem gapStage_noticing : (gapStage f c).station.noticing = c.noticing := by
  unfold gapStage
  split
  · rfl
  · split
    · rfl
    · split <;> rfl

@[simp] theorem enter_noticing (exit : LoopState) : (enter exit c).noticing = c.noticing := by
  unfold enter
  split
  · rfl
  · rw [Station.raiseAll_noticing]
    rfl

@[simp] theorem moveTo_noticing (product : Nat) : (moveTo f product c).station.noticing = c.noticing := by
  unfold moveTo
  dsimp only
  split
  · rfl
  · exact Station.push_noticing _ _ _

theorem loopStage_noticing (veto : Bool) (mc : Nat) : (loopStage f veto mc c).station.noticing = c.noticing := by
  unfold loopStage
  split
  · simp
  · exact (enter_noticing _ _).trans (moveTo_noticing c f _)
  all_goals simp

theorem landItems_noticing (items : List Item) : (landItems items c).noticing = c.noticing := by
  unfold landItems
  dsimp only
  split <;> rfl

theorem applySets_noticing (ids : List SetId) (sets : Vector StagingSet 8) :
    (applySets f ids c sets).1.noticing = c.noticing := by
  induction ids generalizing c sets with
  | nil => rfl
  | cons a rest ih =>
    unfold applySets
    split
    · split
      · exact ih c sets
      · exact (ih _ _).trans (landItems_noticing c _)
    · exact ih c sets
    · exact ih c sets

theorem evaluateLoop_noticing (m : Metered) (mean mc : Nat) (sets : Vector StagingSet 8) :
    (evaluateLoop f m mean mc c sets).station.noticing = c.noticing := by
  unfold evaluateLoop
  split
  · rfl
  · dsimp only
    split <;> exact loopStage_noticing c f m.veto mc

theorem evaluateGrid_noticing (g : GridSource) (sets : Vector StagingSet 8) :
    (evaluateGrid f g c sets).station.noticing = c.noticing := by
  unfold evaluateGrid
  dsimp only
  split
  · rfl
  · split
    · rfl
    · exact evaluateLoop_noticing _ f _ _ _ _

theorem evaluate_noticing (g : GridSource) (sets : Vector StagingSet 8) :
    (evaluate f g c sets).station.noticing = c.noticing := by
  unfold evaluate
  split
  · rfl
  · split
    · rfl
    · dsimp only
      rw [evaluateGrid_noticing, Station.raiseAll_noticing]
      exact (applySets_noticing _ f _ _).trans (gapStage_noticing c f)

theorem Station.thaw_noticing : c.thaw.noticing = c.noticing := by
  unfold Station.thaw
  split <;> rfl

theorem Station.setActuators_noticing (i g l : Nat) : (c.setActuators f i g l).noticing = c.noticing := by
  unfold Station.setActuators
  dsimp only
  split
  · rfl
  · exact enter_noticing _ _

end noticing

end Sys2Proof.Machine
end

section
/-! The commands that leave the rings, the task table and the writers steady: all executions but those of the ring
commands, the ends of reads, snapshots and write-backs, and the link's events. -/
namespace Sys2Proof.Machine
namespace Steady

/-! ## Executions -/

section executions
variable (s : State) (k : SlotId)

/-- A home-ring command whose change leaves the station's notice ring and mark. -/
theorem homeCommand (kind : Nat) (fields : Block64 → Bool) {act : Block64 → Station → Station}
    (h : ∀ r c, (act r c).noticing = c.noticing) : Steady s (s.homeCommand k kind fields act) := by
  refine executing fun x r hr => ?_
  split
  · exact answer hr.held ..
  · next id c hok =>
    exact (setOpened (State.homeCheck_opened hok) (h r c)).answered hr.held

theorem measure : Leaves (execMeasure k s) (Steady s) := by
  refine leaves_next (executing fun x r hr => ?_)
  split
  · exact answer hr.held ..
  · next id c hok =>
    have landed (sets : Vector StagingSet 8) : Steady s { s with sets := sets } := { refl s with }
    refine .answered (.opened (landed _) ?_ (evaluate_noticing c _ _ _)) ?_
    · exact State.homeCheck_opened hok
    · exact hr.held

theorem queryDevice : Leaves (execQueryDevice k s) (Steady s) :=
  leaves_next (executing fun x r hr => by split <;> exact answer hr.held ..)

theorem openStation : Leaves (execOpenStation k s) (Steady s) := by
  refine leaves_next (executing fun x r hr => ?_)
  split
  · exact answer hr.held ..
  · next q items hok =>
    dsimp only
    split
    · exact answer hr.held ..
    · have held : (s.freeNamed q.set).slots[k] = some x := by
        cases q.set <;> exact hr.held
      refine .answered (.trans (freeNamed s q.set) (setStation fun n i _ hn => ?_)) held
      obtain ⟨c, hc, -⟩ := hn
      rw [State.freeNamed_stations, State.openCheck_free hok] at hc
      cases hc

theorem closeStation : Leaves (execCloseStation k s) (Steady s) := by
  refine leaves_next (executing fun x r hr => ?_)
  split
  · exact answer hr.held ..
  · next id c hok =>
    have closing : Steady s (s.setStation id (.closing c)) := setStation fun n i _ hn => by
      obtain ⟨d, hd, h⟩ := hn
      rw [State.closeCheck_opened hok] at hd
      cases hd
      exact ⟨_, rfl, h⟩
    refine (closing.trans ?_).trans (endCloseDrain _ k)
    exact setSlot (s := s.setStation id (.closing c)) hr.held rfl (by simp [Task.isWriting, hr.queued])

theorem readStation : Leaves (execReadStation k s) (Steady s) := by
  refine leaves_next (executing fun x r hr => ?_)
  split
  · exact answer hr.held ..
  · refine .trans ?_ (issue rfl _ _)
    exact setSlot hr.held rfl fun _ => rfl

theorem stageOpen : Leaves (execStageOpen k s) (Steady s) := by
  refine leaves_next (executing fun x r hr => ?_)
  split
  · exact answerStage hr.held ..
  · next i _ => exact .answeredStage (setSet s i _) hr.held

theorem stagePut : Leaves (execStagePut k s) (Steady s) := by
  refine leaves_next (executing fun x r hr => ?_)
  split
  · exact answerStage hr.held ..
  · next i items _ => exact .answeredStage (setSet s i _) hr.held

theorem stageCommit : Leaves (execStageCommit k s) (Steady s) := by
  refine leaves_next (executing fun x r hr => ?_)
  split
  · exact answerStage hr.held ..
  · next q hok =>
    have hc := State.commitCheck_opened hok
    split
    · unfold State.commitAtFrame
      dsimp only
      split
      · exact answerStage hr.held ..
      · split
        · exact answerStage hr.held ..
        · refine .answeredStage (.opened (c := q.station) (setSet s q.setId _) ?_ ?_) ?_
          · exact hc
          · exact rfl
          · exact hr.held
    · unfold State.commitImmediate
      dsimp only
      split
      · exact answerStage hr.held ..
      · refine .answeredStage (.opened (c := q.station) (setSet s q.setId _) ?_ ?_) ?_
        · exact hc
        · exact rfl
        · exact hr.held

theorem stageDiscard : Leaves (execStageDiscard k s) (Steady s) := by
  refine leaves_next (executing fun x r hr => ?_)
  split
  · exact answerStage hr.held ..
  · next i _ =>
    split
    · exact (setSet s i .free).answeredStage hr.held
    · exact (setSet s i .free).answeredStage hr.held
    · split
      · exact answerStage hr.held ..
      · exact (setSet s i .free).answeredStage hr.held
      · next c hc =>
        refine .answeredStage (.opened (c := c) (setSet s i .free) ?_ ?_) ?_
        · exact hc
        · exact rfl
        · exact hr.held

theorem badKind : Leaves (execBadKind k s) (Steady s) := by
  unfold execBadKind
  refine leaves_next ?_
  split
  · next hr =>
    split
    · exact .refl s
    · exact answer (State.ready_held hr) ..
  · exact .refl s

theorem recordUnreadable : Leaves (execRecordUnreadable k s) (Steady s) := by
  unfold execRecordUnreadable
  refine leaves_next ?_
  split
  · next hr => exact setSlot (State.ready_held hr) rfl fun _ => rfl
  · exact .refl s

/-! ## The ends of reads, snapshots and write-backs -/

theorem recordReadDone (r : Block64) (e : Nat) : Leaves (execRecordReadDone k r s e) (Steady s) := by
  unfold execRecordReadDone
  refine leaves_next ?_
  split
  · exact .refl s
  · next x hx =>
    split
    · next hp =>
      split
      · exact .refl s
      · next s' hs =>
        have held : s'.slots[k] = some x := by
          obtain ⟨y, -, -, m, rfl, -⟩ := State.endDone_eq_some hs
          exact hx
        exact ((endDone hs).trans (holdRecord held hp r)).trans (advanceWritten _ _)
    all_goals exact .refl s

theorem faulted (n : WorkRingId) :
    Steady s (match s.workRings[n] with | none => s | some w => s.setWorkRing n (some w.fault)) := by
  split
  · exact .refl s
  · next w hw => exact setWorkRing hw (by unfold WorkRing.fault; split <;> rfl)

theorem recordReadFault (e : Nat) : Leaves (execRecordReadFault k s e) (Steady s) := by
  unfold execRecordReadFault
  refine leaves_next ?_
  split
  · exact .refl s
  · next x hx =>
    split
    · next hp =>
      split
      · exact .refl s
      · next s' hs =>
        have held : s'.slots[k] = some x := by
          obtain ⟨y, -, m, d, rfl, -⟩ := State.endFailed_eq_some hs
          exact hx
        refine (endFailed hs).trans (.trans (.trans ?_ (faulted _ x.ring)) (advanceWritten _ _))
        exact setSlot held rfl (by simp [Task.isWriting, hp])
    all_goals exact .refl s

theorem gridReadDone (data : List Byte) (e : Nat) : Leaves (execGridReadDone k data s e) (Steady s) := by
  unfold execGridReadDone
  refine leaves_next ?_
  split
  · exact .refl s
  · next x hx =>
    split
    · next hp =>
      split
      · exact .refl s
      · next s' hs =>
        split
        · have held : s'.slots[k] = some x := by
            obtain ⟨y, -, -, m, rfl, -⟩ := State.endDone_eq_some hs
            exact hx
          exact (endDone hs).trans (setSlot held rfl (by simp [Task.isWriting, hp]))
        · exact .refl s
    all_goals exact .refl s

theorem gridReadFault (e : Nat) : Leaves (execGridReadFault k s e) (Steady s) := by
  unfold execGridReadFault
  refine leaves_next ?_
  split
  · exact .refl s
  · next x hx =>
    split
    · next hp =>
      split
      · exact .refl s
      · next s' hs =>
        have held : s'.slots[k] = some x := by
          obtain ⟨y, -, m, d, rfl, -⟩ := State.endFailed_eq_some hs
          exact hx
        exact (endFailed hs).trans (setSlot held rfl (by simp [Task.isWriting, hp]))
    all_goals exact .refl s

theorem snapshotWriteDone (e : Nat) : Leaves (execSnapshotWriteDone k s e) (Steady s) := by
  unfold execSnapshotWriteDone
  refine leaves_next ?_
  split
  · exact .refl s
  · next hs => exact endDone hs

theorem bufferFault : Steady s (s.setSlot k (s.slots[k].map Task.bufferFault)) := by
  cases hx : s.slots[k] with
  | none => rw [Option.map_none, State.setSlot_self hx]; exact .refl s
  | some x =>
    refine setSlot hx ?_ fun hw => ?_
    · unfold Task.bufferFault
      split <;> rfl
    · unfold Task.bufferFault
      split
      · rfl
      all_goals exact hw

theorem snapshotWriteFault (e : Nat) : Leaves (execSnapshotWriteFault k s e) (Steady s) := by
  unfold execSnapshotWriteFault
  refine leaves_next ?_
  split
  · exact .refl s
  · next s' hs => exact (endFailed hs).trans (bufferFault s' k)

theorem writebackDone (place : Place) (e : Nat) : Leaves (execWritebackDone place s e) (Steady s) := by
  unfold execWritebackDone
  refine leaves_next ?_
  split
  · exact .refl s
  · next hs => exact endDone hs

end executions

end Steady
end Sys2Proof.Machine
end

section
/-! What a command can do to the rings, the task table and the writers: it is a run of the changes below, or the end of
start-up. Each invariant of the rings is then kept by one lemma per change. -/
namespace Sys2Proof.Machine

/-- A station ring's weight is 1 to 8, and the control ring has none (R118, R119). -/
def WeightAllowed (n : WorkRingId) (weight : Option Nat) : Prop :=
  (n = 0 → weight = none) ∧ (n ≠ 0 → ∃ k, weight = some k ∧ 1 ≤ k ∧ k ≤ 8)

/-- One change of the rings, the task table or the writers. -/
inductive Change (s : State) : State → Prop where
  | steady {t : State} (h : Steady s t) : Change s t
  | halted (why : HaltCause) (m : Memory) (d : Nat) : Change s (haltedAs s why m d)
  | torn (m : Memory) (d : Nat) : Change s (tornDown s m d)
  | taken {c : Choice} {k : SlotId} {w : WorkRing} {q : ResultRing} (chosen : s.choose = some c)
      (free : s.slots[k] = none) (present : s.workRings[c.ring] = some w) (bound : s.resultRings[w.resultRing] = some q) :
      Change s (s.takeInto c k w q)
  | posted {n : WorkRingId} {w : WorkRing} {new : RingIndex} (present : s.workRings[n] = some w)
      (passes : w.postCheck new = none) : Change s (s.setWorkRing n (some { w with posted := new }))
  | created {n : WorkRingId} {weight : Option Nat} (base : Address) (size : Nat) (m : ResultRingId)
      (absent : s.workRings[n] = none) (weighs : WeightAllowed n weight) :
      Change s (s.setWorkRing n (some (WorkRing.fresh base size m weight)))
  | deleted {n : WorkRingId} {w : WorkRing} (present : s.workRings[n] = some w) (idle : w.inFlight = 0) :
      Change s (s.setWorkRing n none)
  | released {n : ResultRingId} {q : ResultRing} {new : RingIndex} (present : s.resultRings[n] = some q)
      (passes : q.releaseCheck new = none) : Change s (s.setResultRing n (some { q with released := new }))
  | resultCreated {n : ResultRingId} {size : Nat} (base : Address) (threshold : Nat) (absent : s.resultRings[n] = none)
      (small : size ≤ 1024) : Change s (s.setResultRing n (some (ResultRing.fresh base size threshold)))
  | resultDeleted {n : ResultRingId} (unbound : ∀ (m : WorkRingId) (w : WorkRing), s.workRings[m] = some w →
      w.resultRing ≠ n) (unnotified : ∀ id : StationId, ¬(s.stations[id]).Notifies n) :
      Change s (s.setResultRing n none)
  | noticed (id : StationId) : Change s (s.emitNotice id)
  | placed {k : SlotId} {t : Task} {w : WorkRing} {q : ResultRing} (c : Completion) (held : s.slots[k] = some t)
      (writing : t.isWriting = true) (present : s.workRings[t.ring] = some w)
      (bound : s.resultRings[w.resultRing] = some q) (first : ∀ n i, .completion k n i ∉ s.resultWrites)
      (reserved : 1 ≤ q.reserved) : Change s (s.placeCompletion k w.resultRing q c)
  | produced (n : ResultRingId) : Change s (s.recordProduced n)
  | freed {u : State} {k : SlotId} {n : ResultRingId} {i : RingIndex} {e : Nat}
      (ended : s.endDone (.completion k n i) e = some u) (m : ResultRingId) :
      Change s ((u.recordProduced m).freeSlot k)
  | setup {u : Setup} (small : u.resultSize ≤ 1024) : Change s { s with heldSetup := some u }

/-- A run of changes. -/
abbrev Changes : State → State → Prop := Relation.ReflTransGen Change

/-- The end of start-up (R163). -/
def Started (s t : State) : Prop :=
  s.controller = .starting ∧ ∃ e s' u, s.endDone .zeroing e = some s' ∧ s.heldSetup = some u ∧ t = s'.completeStartUp u

/-- What every change keeps, a run of changes keeps. -/
theorem Changes.keep {P : State → Prop} (change : ∀ s t, P s → Change s t → P t) {s t : State} (h : Changes s t)
    (hs : P s) : P t := by
  induction h with
  | refl => exact hs
  | tail _ c ih => exact change _ _ ih c

theorem Change.run {s t : State} (h : Change s t) : Changes s t := .single h

theorem Steady.run {s t : State} (h : Steady s t) : Changes s t := (Change.steady h).run

namespace Changes
variable {s t u : State}

theorem foldl {α : Type} {f : State → α → State} (h : ∀ s a, Changes s (f s a)) (l : List α) (s : State) :
    Changes s (l.foldl f s) := by
  induction l generalizing s with
  | nil => exact .refl
  | cons a rest ih => exact (h s a).trans (ih _)

theorem executing {k : SlotId} {kind : Nat} {act : Task → Block64 → State}
    (h : ∀ x r, Runs s k x r kind → Changes s (act x r)) : Changes s (s.executing k kind act) := by
  rcases s.executing_cases k kind act with e | ⟨x, r, hr, e⟩
  · rw [e]
  · rw [e]
    exact h x r hr

theorem reached {act : State → State} (h : Changes s (act s)) : Changes s (s.reached act) := by
  unfold State.reached
  split
  · exact h
  · exact .refl

variable (s)

/-! ## Halt, teardown and CTRL writes -/

theorem halt (why : HaltCause) : Changes s (s.halt why) := by
  by_cases h : Halts s
  · obtain ⟨m, d, e, -⟩ := State.halt_spec h why
    rw [e]
    exact (Change.halted why m d).run
  · rw [State.halt_of_not h]

theorem teardown : Changes s s.teardown := by
  obtain ⟨m, d, e, -⟩ := s.teardown_spec
  rw [e]
  exact (Change.torn m d).run

theorem offerSlots (n : ResultRingId) : Changes s (s.offerSlots n) := by
  refine foldl (fun s id => ?_) _ s
  split
  · exact (Change.noticed id).run
  · exact .refl

theorem resume : Changes s s.resume := by
  have running : Steady s { s with controller := .running } := { Steady.refl s with }
  exact running.run.trans (foldl offerSlots _ _)

theorem beginStartUp : Changes s s.beginStartUp := by
  have begun : Steady s { s with controller := .starting, haltCause := .none } := { Steady.refl s with }
  unfold State.beginStartUp
  dsimp only
  split
  · exact (begun.trans (.issue rfl _ _)).run
  · exact begun.run.trans (halt _ _)

theorem beginQuiesce : Steady s s.beginQuiesce := by
  unfold State.beginQuiesce
  split <;> exact { Steady.refl s with }

theorem enabledWrite (before : Bool) : Changes s (s.enabledWrite before) := by
  unfold State.enabledWrite
  split
  · exact beginStartUp s
  · split
    · exact (beginQuiesce s).run
    · exact .refl
  · split
    · exact resume s
    · exact .refl
  · split
    · exact resume s
    · exact .refl
  · exact .refl
  · exact .refl

theorem writeCtrl (value : Register) : Changes s (s.writeCtrl value) := by
  have stored : Steady s { s with quiesceBit := ctrlQuiesce value } := { Steady.refl s with }
  unfold State.writeCtrl
  split
  · exact (teardown s).trans (Steady.run { Steady.refl s.teardown with })
  · dsimp only
    split
    · exact stored.run.trans (enabledWrite _ _)
    · split
      · exact stored.run
      · exact stored.run.trans (teardown _)

theorem hardReset (why : ResetCause) : Changes s (s.hardReset why) :=
  (teardown s).trans (Steady.run { Steady.refl s.teardown with })

/-! ## POST writes and the register window -/

theorem postWork (value : Register) : Changes s (s.postWork value) := by
  unfold State.postWork
  split
  · exact (Steady.reject ..).run
  · split
    · exact (Steady.reject ..).run
    · next w hw =>
      split
      · exact (Steady.reject ..).run
      · next passes => exact (Change.posted hw passes).run

theorem releaseResult (value : Register) : Changes s (s.releaseResult value) := by
  unfold State.releaseResult
  split
  · exact (Steady.reject ..).run
  · split
    · exact (Steady.reject ..).run
    · next q hq =>
      split
      · exact (Steady.reject ..).run
      · next passes =>
        split
        · exact .refl
        · exact (Change.released hq passes).run.trans (offerSlots _ _)

theorem writePost (value : Register) : Changes s (s.writePost value) := by
  unfold State.writePost
  split
  · exact postWork s value
  · split
    · exact releaseResult s value
    · exact (Steady.reject ..).run

theorem writeRegister (offset : BitVec 12) (value : Register) : Changes s (s.writeRegister offset value) := by
  unfold State.writeRegister
  split
  · exact writeCtrl s value
  · exact Steady.run { Steady.refl s with }
  · exact Steady.run { Steady.refl s with }
  · exact writePost s value
  · exact Steady.run { Steady.refl s with }
  · exact Steady.run { Steady.refl s with }
  · exact .refl

/-! ## Takes and result writes -/

theorem lowestFreeSlot_free {k : SlotId} (h : s.lowestFreeSlot = some k) : s.slots[k] = none := by
  unfold State.lowestFreeSlot at h
  simpa using List.find?_some h

theorem take : Leaves (execTake s) (Changes s) := by
  unfold execTake
  refine leaves_next ?_
  split
  · next c k chosen low =>
    have free := lowestFreeSlot_free s low
    split
    · exact .refl
    · next w hw =>
      split
      · exact .refl
      · next q hq => exact (Change.taken chosen free hw hq).run
  · exact .refl

/-- A slot that may write has no result write in flight (R131). -/
theorem mayWrite_first {k : SlotId} {x : Task} (h : s.mayWrite k x = true) (n : ResultRingId) (i : RingIndex) :
    .completion k n i ∉ s.resultWrites := fun hi => by
  obtain ⟨y, hy, hk⟩ := List.mem_map.mp (List.mem_of_mem_filter hi)
  have waits : s.transfers.any (Transfer.ofSlotWrite k) = true :=
    List.any_eq_true.mpr ⟨y, hy, by simp [Transfer.ofSlotWrite, hk]⟩
  simp [State.mayWrite, waits] at h

theorem resultWrite (k : SlotId) : Leaves (execResultWrite k s) (Changes s) := by
  unfold execResultWrite
  refine leaves_next ?_
  split
  · exact .refl
  · next x hx =>
    split
    · next hp =>
      split
      · exact .refl
      · next w hw =>
        split
        · exact .refl
        · next q hq =>
          split
          · next h =>
            obtain ⟨may, reserved⟩ := Bool.and_eq_true_iff.mp h
            exact (Change.placed _ hx (by simp [Task.isWriting, hp]) hw hq (mayWrite_first s may)
              (of_decide_eq_true reserved)).run
          · exact .refl
    all_goals exact .refl

/-- The deletion of a ring: its task answers, and the ring becomes ABSENT (R138). -/
theorem endDeleteDrain (k : SlotId) : Changes s (s.endDeleteDrain k) := by
  rcases s.endDeleteDrain_cases k with e | ⟨x, r, n, w, hx, -, hw, idle, e⟩
  · rw [e]
  · rw [e]
    have freed (sets : Vector StagingSet 8) : Steady s { s with sets := sets } := { Steady.refl s with }
    have answered : Steady s (({ s with
        sets := mapBank (fun x => if x.openOwnedBy n then .free else x) s.sets } : State).answer k x r .ok
          (.deleteWorkRing n.val (s.sets.toList.filter (StagingSet.openOwnedBy n)).length
            (w.posted - w.taken).toNat)) := by
      refine .answered (freed _) ?_
      exact hx
    exact answered.run.tail (.deleted hw idle)

theorem settleDrains : Changes s s.settleDrains :=
  foldl (fun s k => (Steady.endCloseDrain s k).run.trans (endDeleteDrain _ k)) _ s

theorem resultWriteDone (n : ResultRingId) (i : RingIndex) (e : Nat) :
    Leaves (execResultWriteDone n i s e) (Changes s) := by
  unfold execResultWriteDone
  refine leaves_next ?_
  split
  · exact .refl
  · split
    · exact .refl
    · next s' hs =>
      have produced : Changes s (s'.recordProduced n) := (Steady.endDone hs).run.tail (.produced n)
      dsimp only
      split
      · next k a b hk =>
        rw [hk] at hs
        exact ((Change.freed hs n).run.trans (Steady.afterLastTask _).run).trans (settleDrains _)
      · exact (produced.trans (Steady.noticeWritten _ _ n).run).trans (settleDrains _)
      · exact produced

theorem resultWriteFault (n : ResultRingId) (i : RingIndex) (e : Nat) :
    Leaves (execResultWriteFault n i s e) (Changes s) := by
  unfold execResultWriteFault
  refine leaves_next ?_
  split
  · exact .refl
  · split
    · exact .refl
    · next hs => exact (Steady.endFailed hs).run.trans (halt _ _)

theorem writebackFault (place : Place) (e : Nat) : Leaves (execWritebackFault place s e) (Changes s) := by
  unfold execWritebackFault
  refine leaves_next ?_
  split
  · exact .refl
  · next hs => exact (Steady.endFailed hs).run.trans (halt _ _)

/-! ## Start-up -/

theorem setupReadDone (block : Block64) (e : Nat) : Leaves (execSetupReadDone block s e) (Changes s) := by
  unfold execSetupReadDone
  refine leaves_next ?_
  split
  · next s' _ hs =>
    split
    · next accepted =>
      have small : (setupOf block).resultSize ≤ 1024 := by
        simp only [setupAccepted, Bool.and_eq_true] at accepted
        obtain ⟨⟨⟨⟨-, size⟩, -⟩, -⟩, -⟩ := accepted
        have := (ringSizeAccepted_iff _).mp size
        omega
      exact ((Steady.endDone hs).run.tail (.setup small)).trans (Steady.issue rfl _ _).run
    · exact (Steady.endDone hs).run.trans (halt _ _)
  · exact .refl

theorem setupReadFault (e : Nat) : Leaves (execSetupReadFault s e) (Changes s) := by
  unfold execSetupReadFault
  refine leaves_next ?_
  split
  · exact .refl
  · next hs => exact (Steady.endFailed hs).run.trans (halt _ _)

theorem writebackZeroingFault (e : Nat) : Leaves (execWritebackZeroingFault s e) (Changes s) := by
  unfold execWritebackZeroingFault
  refine leaves_next ?_
  split
  · exact .refl
  · next hs => exact (Steady.endFailed hs).run.trans (halt _ _)

theorem writebackZeroingDone (e : Nat) :
    Leaves (execWritebackZeroingDone s e) fun t => Changes s t ∨ Started s t := by
  unfold execWritebackZeroingDone
  refine leaves_next ?_
  split
  · next s' u starting hs held => exact .inr ⟨starting, e, s', u, hs, held, rfl⟩
  · exact .inl .refl

/-! ## Ring commands -/

/-- A ring that passes the checks of CREATE_WORK_RING (R134). -/
theorem createCheck_ok {x : Task} {r : Block64} {q : CreateRequest} (h : s.createCheck x r = .ok q) :
    s.workRings[q.ring] = none ∧ WeightAllowed q.ring (some (recordByteA r)) := by
  unfold State.createCheck at h
  split at h
  · cases h
  · split at h
    · cases h
    · next p hp =>
      split at h
      · cases h
      · split at h
        · cases h
        · next absent =>
          cases h
          refine ⟨Option.not_isSome_iff_eq_none.mp absent, ?_⟩
          unfold createRequest at hp
          split at hp
          · split at hp
            · next ranges =>
              obtain ⟨nonzero, -, -, low, high⟩ := ranges
              cases hp
              exact ⟨fun zero => absurd zero nonzero, fun _ => ⟨_, rfl, low, high⟩⟩
            · cases hp
          · cases hp

theorem createWorkRing (k : SlotId) : Leaves (execCreateWorkRing k s) (Changes s) := by
  refine leaves_next (executing fun x r hr => ?_)
  split
  · exact (Steady.answer hr.held ..).run
  · next q hok =>
    obtain ⟨absent, weighs⟩ := createCheck_ok s hok
    refine .head (.created _ _ _ absent weighs) (Steady.run (.answered (.writeBack _ _ _) ?_))
    exact hr.held

theorem deleteCheck_ok {x : Task} {r : Block64} {n : WorkRingId} {w : WorkRing} (h : s.deleteCheck x r = .ok (n, w)) :
    s.workRings[n] = some w := by
  unfold State.deleteCheck at h
  split at h
  · cases h
  · split at h
    · cases h
    · split at h
      · cases h
      · split at h
        · cases h
        · next hw =>
          split at h
          · cases h
          · cases h
            exact hw

theorem deleteWorkRing (k : SlotId) : Leaves (execDeleteWorkRing k s) (Changes s) := by
  refine leaves_next (executing fun x r hr => ?_)
  split
  · exact (Steady.answer hr.held ..).run
  · next n w hok =>
    refine .trans (Steady.run (.trans (.setWorkRing (v := { w with state := .draining }) (deleteCheck_ok s hok) rfl) ?_))
      (endDeleteDrain _ k)
    exact .setSlot (s := s.setWorkRing n _) hr.held rfl (by simp [Task.isWriting, hr.queued])

theorem createResultRing (k : SlotId) : Leaves (execCreateResultRing k s) (Changes s) := by
  refine leaves_next (executing fun x r hr => ?_)
  split
  · exact (Steady.answer hr.held ..).run
  · next n hok =>
    obtain ⟨absent, small⟩ : s.resultRings[n] = none ∧ recordSize r ≤ 1024 := by
      unfold State.createResultCheck at hok
      split at hok
      · cases hok
      · split at hok
        · cases hok
        · next request =>
          split at hok
          · cases hok
          · next absent =>
            cases hok
            obtain ⟨-, -, size, -⟩ := createResultRequest_range request
            exact ⟨Option.not_isSome_iff_eq_none.mp absent, by omega⟩
    refine .head (.resultCreated _ _ absent small) (Steady.run (.answered (.writeBack _ _ _) ?_))
    exact hr.held

/-- A result ring that passes the checks of DELETE_RESULT_RING is not in use (R150). -/
theorem deleteResultCheck_ok {x : Task} {r : Block64} {n : ResultRingId} {q : ResultRing}
    (h : s.deleteResultCheck x r = .ok (n, q)) :
    (∀ (m : WorkRingId) (w : WorkRing), s.workRings[m] = some w → w.resultRing ≠ n) ∧
      ∀ id : StationId, ¬(s.stations[id]).Notifies n := by
  unfold State.deleteResultCheck at h
  split at h
  · cases h
  · split at h
    · cases h
    · split at h
      · cases h
      · split at h
        · cases h
        · split at h
          · cases h
          · next unused =>
            cases h
            rw [ringInUse_iff] at unused
            obtain ⟨unbound, unnamed⟩ := not_or.mp unused
            exact ⟨fun m w hw e => unbound ⟨m, w, hw, e⟩, fun id ⟨c, hc, e, _⟩ => unnamed ⟨id, c, hc, e⟩⟩

theorem deleteResultRing (k : SlotId) : Leaves (execDeleteResultRing k s) (Changes s) := by
  refine leaves_next (executing fun x r hr => ?_)
  split
  · exact (Steady.answer hr.held ..).run
  · next n q hok =>
    obtain ⟨unbound, unnotified⟩ := deleteResultCheck_ok s hok
    refine .head (.resultDeleted unbound unnotified) (Steady.run (.answer ?_ ..))
    exact hr.held

end Changes

/-! ## Every command -/

theorem exec_changes (i : Instr) (s : State) : Leaves (exec i s) fun t => Changes s t ∨ Started s t := by
  have steady {a : Answer} (h : Leaves a (Steady s)) : Leaves a fun t => Changes s t ∨ Started s t :=
    fun t e => .inl (h t e).run
  have run {a : Answer} (h : Leaves a (Changes s)) : Leaves a fun t => Changes s t ∨ Started s t :=
    fun t e => .inl (h t e)
  cases i with
  | queryDevice k => exact steady (.queryDevice s k)
  | createWorkRing k => exact run (.createWorkRing s k)
  | deleteWorkRing k => exact run (.deleteWorkRing s k)
  | createResultRing k => exact run (.createResultRing s k)
  | deleteResultRing k => exact run (.deleteResultRing s k)
  | openStation k => exact steady (.openStation s k)
  | closeStation k => exact steady (.closeStation s k)
  | readStation k => exact steady (.readStation s k)
  | measure k => exact steady (.measure s k)
  | freeze k | reseek k | ackNotice k => exact steady (leaves_next (.homeCommand s k _ _ fun _ _ => rfl))
  | thaw k => exact steady (leaves_next (.homeCommand s k _ _ fun _ c => c.thaw_noticing))
  | setActuators k => exact steady (leaves_next (.homeCommand s k _ _ fun _ c => c.setActuators_noticing ..))
  | stageOpen k => exact steady (.stageOpen s k)
  | stagePut k => exact steady (.stagePut s k)
  | stageCommit k => exact steady (.stageCommit s k)
  | stageDiscard k => exact steady (.stageDiscard s k)
  | badKind k => exact steady (.badKind s k)
  | recordUnreadable k => exact steady (.recordUnreadable s k)
  | softReset v | startUp v | enableOff v | quiesce v | quiesceClear v =>
    exact run (leaves_next (.reached (.writeCtrl s v)))
  | postWork v | releaseResult v | badOperation v => exact run (leaves_next (.reached (.writePost s v)))
  | causeClear v | maskWrite v => exact run (leaves_next (.reached (Steady.run { Steady.refl s with })))
  | registerWrite offset bytes v =>
    refine run (leaves_next (.reached ?_))
    split
    · exact .writeRegister s offset v
    · exact .refl
  | powerOnReset =>
    exact run (leaves_next ((Changes.hardReset s .powerOn).trans (Steady.run { Steady.refl _ with })))
  | pinReset => exact run (leaves_next (.hardReset s .pin))
  | linkDown => exact steady (leaves_next { Steady.mapTransfers s (f := Transfer.doom) fun _ => rfl with })
  | completionTimeout read e =>
    exact steady (leaves_next (Steady.mapTransfers s (fun x => by split <;> rfl)))
  | linkUp | configurationSpaceWrite _ => exact steady (leaves_next { Steady.refl s with })
  | take => exact run (.take s)
  | recordReadDone k r e => exact steady (.recordReadDone s k r e)
  | recordReadFault k e => exact steady (.recordReadFault s k e)
  | gridReadDone k data e => exact steady (.gridReadDone s k data e)
  | gridReadFault k e => exact steady (.gridReadFault s k e)
  | snapshotWriteDone k e => exact steady (.snapshotWriteDone s k e)
  | snapshotWriteFault k e => exact steady (.snapshotWriteFault s k e)
  | resultWrite k => exact run (.resultWrite s k)
  | resultWriteDone n i e => exact run (.resultWriteDone s n i e)
  | resultWriteFault n i e => exact run (.resultWriteFault s n i e)
  | writebackFault place e => exact run (.writebackFault s place e)
  | setupReadDone block e => exact run (.setupReadDone s block e)
  | setupReadFault e => exact run (.setupReadFault s e)
  | writebackZeroingDone e => exact Changes.writebackZeroingDone s e
  | writebackZeroingFault e => exact run (.writebackZeroingFault s e)
  | closeDrainEnd k => exact steady (leaves_next (.endCloseDrain s k))
  | deleteDrainEnd k => exact run (leaves_next (.endDeleteDrain s k))
  | noticeEmission id => exact run (leaves_next (Change.noticed id).run)
  | writebackDone place e => exact steady (.writebackDone s place e)

end Sys2Proof.Machine
end

section
/-! The work rings and the task table stay sound (R118 to R124, R132): one lemma per change. -/
namespace Sys2Proof.Machine

/-! ## Events that leave the work rings and the tasks' rings -/

/-- The end of start-up makes the two rings of the setup block ACTIVE; what else it changes is steady (R163). -/
theorem Steady.completeStartUp (s : State) (u : Setup) :
    Steady ((s.setWorkRing 0 (some (WorkRing.fresh u.controlBase u.controlSize 0 none))).setResultRing 0
      (some (ResultRing.fresh u.resultBase u.resultSize u.resultThreshold))) (s.completeStartUp u) := by
  have quiesced (a : State) : Steady a (if s.quiesceBit then a.setCause .quiesced else a) := by
    split
    · exact { Steady.refl a with }
    · exact .refl a
  unfold State.completeStartUp
  refine .trans ?_ (quiesced _)
  exact { Steady.refl _ with heldSetup := fun _ e => nomatch (show none = some _ from e) }

/-- The arbiter, what counts of every work ring, and every task's ring are as before. -/
structure SameWork (s t : State) : Prop where
  pointer : t.pointer = s.pointer
  runCounter : t.runCounter = s.runCounter
  workRings : ∀ n : WorkRingId, (t.workRings[n]).map WorkRing.footing = (s.workRings[n]).map WorkRing.footing
  slots : ∀ k : SlotId, (t.slots[k]).map Task.ring = (s.slots[k]).map Task.ring

theorem Steady.sameWork {s t : State} (h : Steady s t) : SameWork s t :=
  ⟨h.pointer, h.runCounter, h.workRings, fun k => (h.slots k).ring⟩

namespace SameWork
variable {s t : State}

theorem refl (s : State) : SameWork s s := (Steady.refl s).sameWork

theorem emitNotice (s : State) (id : StationId) : SameWork s (s.emitNotice id) := by
  rcases s.emitNotice_cases id with ⟨e, -⟩ | ⟨c, q, -, -, -, -, -, e⟩
  · rw [e]
    exact refl s
  · rw [e]
    exact { refl s with }

theorem recordProduced (s : State) (n : ResultRingId) : SameWork s (s.recordProduced n) := by
  cases h : s.resultRings[n] with
  | none =>
    rw [State.recordProduced_absent h]
    exact refl s
  | some q =>
    rw [State.recordProduced_spec h]
    exact { refl s with }

/-- The end of start-up, but for the control ring it makes (R163). -/
theorem completeStartUp (s : State) (u : Setup) :
    SameWork (s.setWorkRing 0 (some (WorkRing.fresh u.controlBase u.controlSize 0 none))) (s.completeStartUp u) :=
  { (Steady.completeStartUp s u).sameWork with }

theorem workRing (h : SameWork s t) {n : WorkRingId} {w : WorkRing} (hw : t.workRings[n] = some w) :
    ∃ v, s.workRings[n] = some v ∧ w.footing = v.footing := by
  have e := h.workRings n
  rw [hw, Option.map_some] at e
  obtain ⟨v, hv, hf⟩ := Option.map_eq_some_iff.mp e.symm
  exact ⟨v, hv, hf.symm⟩

theorem workRing_none (h : SameWork s t) {n : WorkRingId} : t.workRings[n] = none ↔ s.workRings[n] = none := by
  rw [← Option.map_eq_none_iff (f := WorkRing.footing), h.workRings n, Option.map_eq_none_iff]

end SameWork

theorem Task.forgetSlot_ring (k : SlotId) (x : Task) : (x.forgetSlot k).ring = x.ring := by
  unfold Task.forgetSlot
  split <;> rfl

theorem none_bank {α : Type} {n : Nat} (k : Fin n) : (Vector.replicate n (none : Option α))[k] = none := by simp

/-! ## The arbiter's choice (R122 to R124) -/

/-- The search passes over the control ring. -/
theorem ringAbove_ne_zero (p : WorkRingId) (j : Nat) : ringAbove p j ≠ 0 := fun e => by
  have : (p.val - 1 + j) % 7 + 1 = 0 := congrArg Fin.val e
  omega

/-- A chosen ring may be taken from, and the pointer stays, its run raised within the weight, or moves to it. -/
theorem State.choose_cases {s : State} {c : Choice} (h : s.choose = some c) :
    CanTake s c.ring ∧
      (c.pointer = s.pointer ∧ (c.runCounter = s.runCounter ∨ c.runCounter = s.runCounter + 1 ∧ s.runLeft = true) ∨
        c.pointer ≠ 0 ∧ c.runCounter = 1) := by
  unfold State.choose at h
  split at h
  · next can =>
    cases h
    exact ⟨(canTake_iff s 0).mpr can, .inl ⟨rfl, .inl rfl⟩⟩
  · split at h
    · next again =>
      obtain ⟨-, can, left⟩ := again
      cases h
      exact ⟨(canTake_iff s _).mpr can, .inl ⟨rfl, .inr ⟨rfl, left⟩⟩⟩
    · obtain ⟨n, found, e⟩ := Option.map_eq_some_iff.mp h
      cases e
      have above : n ∈ (List.range 7).map fun j => ringAbove s.pointer (j + 1) := List.mem_of_find?_eq_some found
      obtain ⟨j, -, rfl⟩ := List.mem_map.mp above
      exact ⟨(canTake_iff s _).mpr (List.find?_some found), .inr ⟨ringAbove_ne_zero _ _, rfl⟩⟩

theorem State.runLeft_iff (s : State) : s.runLeft = true ↔ RunLeft s := by
  unfold State.runLeft RunLeft
  cases s.workRings[s.pointer] with
  | none => simp
  | some w => cases hw : w.weight <;> simp [hw]

/-- A take is from an eligible ring, as its descriptors stand (R122). -/
theorem Eligible.of_choose {s : State} {c : Choice} {w : WorkRing} {q : ResultRing} (h : s.choose = some c)
    (hw : s.workRings[c.ring] = some w) (hq : s.resultRings[w.resultRing] = some q) : Eligible s c.ring w q := by
  obtain ⟨⟨v, p, he⟩, -⟩ := State.choose_cases h
  cases hw.symm.trans he.present
  cases hq.symm.trans he.bound
  exact he

/-! ## The indexes, the weights and the arbiter -/

/-- A work ring's posted index is at most its size ahead of its taken index, and its weight in range. -/
structure WorkRing.Sound (n : WorkRingId) (w : WorkRing) : Prop where
  posted : (w.posted - w.taken).toNat ≤ w.size
  weight : WeightAllowed n w.weight

theorem WorkRing.Sound.congr {n : WorkRingId} {v w : WorkRing} (h : v.Sound n) (e : w.footing = v.footing) :
    w.Sound n := by
  have posted : w.footing.posted = v.footing.posted := congrArg _ e
  have taken : w.footing.taken = v.footing.taken := congrArg _ e
  have size : w.footing.size = v.footing.size := congrArg _ e
  have weight : w.footing.weight = v.footing.weight := congrArg _ e
  exact ⟨show (w.footing.posted - w.footing.taken).toNat ≤ w.footing.size by
    rw [posted, taken, size]; exact h.posted, show WeightAllowed n w.footing.weight from weight ▸ h.weight⟩

theorem WorkRing.Sound.fresh {n : WorkRingId} {weight : Option Nat} (h : WeightAllowed n weight) (base : Address)
    (size : Nat) (m : ResultRingId) : (WorkRing.fresh base size m weight).Sound n :=
  ⟨by simp [WorkRing.fresh], h⟩

namespace WorkRingsSound
variable {s t : State}

theorem ring (h : WorkRingsSound s) {n : WorkRingId} {w : WorkRing} (hw : s.workRings[n] = some w) : w.Sound n :=
  ⟨h.posted n w hw, h.weight n w hw⟩

theorem of_rings (pointer : t.pointer ≠ 0) (run : t.runCounter ≤ 8)
    (rings : ∀ (n : WorkRingId) (w : WorkRing), t.workRings[n] = some w → w.Sound n) : WorkRingsSound t :=
  ⟨pointer, run, fun n w hw => (rings n w hw).posted, fun n w hw => (rings n w hw).weight⟩

theorem keep (h : WorkRingsSound s) (same : SameWork s t) : WorkRingsSound t :=
  of_rings (same.pointer ▸ h.pointer) (same.runCounter ▸ h.run) fun n w hw => by
    obtain ⟨v, hv, e⟩ := same.workRing hw
    exact (h.ring hv).congr e

/-- One ring is written. -/
theorem set (h : WorkRingsSound s) {n : WorkRingId} {x : Option WorkRing} (hx : ∀ w, x = some w → w.Sound n) :
    WorkRingsSound (s.setWorkRing n x) :=
  of_rings h.pointer h.run fun m w hw => by
    rw [State.setWorkRing_workRings, get_set] at hw
    split at hw
    · next e => exact e ▸ hx w hw
    · exact h.ring hw

theorem set_some (h : WorkRingsSound s) {n : WorkRingId} {w : WorkRing} (hw : w.Sound n) :
    WorkRingsSound (s.setWorkRing n (some w)) :=
  h.set fun v hv => by
    cases hv
    exact hw

theorem taken (h : WorkRingsSound s) {c : Choice} {k : SlotId} {w : WorkRing} {q : ResultRing}
    (chosen : s.choose = some c) (hw : s.workRings[c.ring] = some w) (hq : s.resultRings[w.resultRing] = some q) :
    WorkRingsSound (s.takeInto c k w q) := by
  have advanced : ({ w with taken := w.taken + 1, inFlight := w.inFlight + 1 } : WorkRing).Sound c.ring := by
    have waiting := (Eligible.of_choose chosen hw hq).waiting
    have posted := (h.ring hw).posted
    exact ⟨by dsimp only; bv_omega, (h.ring hw).weight⟩
  have rings {n : WorkRingId} {v : WorkRing} := (h.set_some advanced).ring (n := n) (w := v)
  obtain ⟨-, ⟨pointer, run⟩ | ⟨pointer, run⟩⟩ := State.choose_cases chosen
  · refine of_rings (show c.pointer ≠ 0 from pointer ▸ h.pointer) (show c.runCounter ≤ 8 from ?_) fun _ _ => rings
    rcases run with run | ⟨run, left⟩
    · exact run ▸ h.run
    · obtain ⟨v, weight, hv, weighs, below⟩ := s.runLeft_iff.mp left
      obtain ⟨-, station⟩ := h.weight _ v hv
      obtain ⟨k, hk, -, high⟩ := station h.pointer
      cases weighs.symm.trans hk
      omega
  · exact of_rings (show c.pointer ≠ 0 from pointer) (show c.runCounter ≤ 8 by omega) fun _ _ => rings

theorem freeSlot (h : WorkRingsSound s) (k : SlotId) : WorkRingsSound (s.freeSlot k) := by
  unfold State.freeSlot
  split
  · exact h
  · next x _ =>
    dsimp only
    split
    · exact ⟨h.pointer, h.run, h.posted, h.weight⟩
    · next w hw =>
      have kept : ({ w with inFlight := w.inFlight - 1 } : WorkRing).Sound x.ring :=
        ⟨(h.ring hw).posted, (h.ring hw).weight⟩
      exact of_rings h.pointer h.run fun _ _ => (h.set_some kept).ring

theorem post (h : WorkRingsSound s) {n : WorkRingId} {w : WorkRing} {new : RingIndex} (hw : s.workRings[n] = some w)
    (passes : w.postCheck new = none) : WorkRingsSound (s.setWorkRing n (some { w with posted := new })) := by
  unfold WorkRing.postCheck at passes
  split at passes
  · cases passes
  · next within => exact h.set_some ⟨Nat.le_of_not_lt within, (h.ring hw).weight⟩

theorem haltedAs (h : WorkRingsSound s) (why : HaltCause) (m : Memory) (d : Nat) :
    WorkRingsSound (haltedAs s why m d) :=
  of_rings h.pointer h.run fun n _ hw => by
    obtain ⟨v, hv, e⟩ := Option.map_eq_some_iff.mp ((get_ofFn _ n).symm.trans hw)
    cases e
    exact ⟨(h.ring hv).posted, (h.ring hv).weight⟩

theorem of_absent (pointer : s.pointer ≠ 0) (run : s.runCounter ≤ 8)
    (none : ∀ n : WorkRingId, s.workRings[n] = none) : WorkRingsSound s :=
  of_rings pointer run fun n _ hw => nomatch (none n).symm.trans hw

theorem change (h : WorkRingsSound s) (c : Change s t) : WorkRingsSound t := by
  cases c with
  | steady steady => exact h.keep steady.sameWork
  | halted why m d => exact h.haltedAs why m d
  | torn m d => exact of_absent (show (1 : WorkRingId) ≠ 0 by decide) (Nat.zero_le _) none_bank
  | taken chosen _ present bound => exact h.taken chosen present bound
  | posted present passes => exact h.post present passes
  | created base size m _ weighs => exact h.set_some (.fresh weighs base size m)
  | deleted => exact h.set fun _ e => nomatch e
  | noticed id => exact h.keep (.emitNotice s id)
  | produced n => exact h.keep (.recordProduced s n)
  | freed ended m => exact ((h.keep (Steady.endDone ended).sameWork).keep (.recordProduced _ m)).freeSlot _
  | released | resultCreated | resultDeleted | placed | setup => exact h.keep { SameWork.refl s with }

theorem started (h : WorkRingsSound s) (c : Started s t) : WorkRingsSound t := by
  obtain ⟨-, e, s', u, ended, -, rfl⟩ := c
  have control : (WorkRing.fresh u.controlBase u.controlSize 0 none).Sound 0 :=
    .fresh ⟨fun _ => rfl, fun nonzero => absurd rfl nonzero⟩ _ _ _
  have rings := (h.keep (Steady.endDone ended).sameWork).set_some control
  exact rings.keep (.completeStartUp s' u)

end WorkRingsSound

/-! ## The task table (R132) -/

/-- The ring of the task a slot holds. -/
def State.taskRing (s : State) (k : SlotId) : Option WorkRingId := (s.slots[k]).map Task.ring

/-- The in-flight count of a ring that is present. -/
def State.ringCount (s : State) (n : WorkRingId) : Option Nat := (s.workRings[n]).map WorkRing.inFlight

/-- Each present ring counts the slots that name it and is within its limit, and no slot names an absent ring (R132). -/
structure Counts (rings : SlotId → Option WorkRingId) (counts : WorkRingId → Option Nat) : Prop where
  present : ∀ k n, rings k = some n → counts n ≠ none
  counted : ∀ n c, counts n = some c → c = (List.finRange 8).countP fun k => rings k == some n
  limited : ∀ n c, counts n = some c → c ≤ if n = 0 then 1 else 4

theorem taskTableSound_iff (s : State) : TaskTableSound s ↔ Counts s.taskRing s.ringCount := by
  constructor
  · intro h
    refine ⟨fun k n hk => ?_, fun n c hc => ?_, fun n c hc => ?_⟩
    · obtain ⟨t, ht, rfl⟩ := Option.map_eq_some_iff.mp hk
      exact fun e => h.present k t ht (Option.map_eq_none_iff.mp e)
    · obtain ⟨w, hw, rfl⟩ := Option.map_eq_some_iff.mp hc
      exact h.counted n w hw
    · obtain ⟨w, hw, rfl⟩ := Option.map_eq_some_iff.mp hc
      exact h.limited n w hw
  · intro h
    have counts {n : WorkRingId} {w : WorkRing} (hw : s.workRings[n] = some w) : s.ringCount n = some w.inFlight := by
      rw [State.ringCount, hw, Option.map_some]
    exact {
      present := fun k t ht e => h.present k t.ring (by rw [State.taskRing, ht, Option.map_some])
        (by rw [State.ringCount, e, Option.map_none])
      counted := fun n w hw => h.counted n _ (counts hw)
      limited := fun n w hw => h.limited n _ (counts hw) }

/-- Of all slots, the one vacated is the only one whose ring is counted differently. -/
theorem countP_vacate (rings : SlotId → Option WorkRingId) (k : SlotId) (n : WorkRingId) :
    (List.finRange 8).countP (fun j => rings j == some n) =
      (List.finRange 8).countP (fun j => Function.update rings k none j == some n) +
        if rings k = some n then 1 else 0 := by
  have split := List.perm_cons_erase (List.mem_finRange k)
  have others : ∀ j ∈ (List.finRange 8).erase k, Function.update rings k none j = rings j := fun j hj =>
    Function.update_of_ne (fun e => (List.nodup_finRange 8).not_mem_erase (e ▸ hj)) _ _
  have same : ((List.finRange 8).erase k).countP (fun j => Function.update rings k none j == some n) =
      ((List.finRange 8).erase k).countP fun j => rings j == some n :=
    List.countP_congr fun j hj => by rw [others j hj]
  rw [split.countP_eq, split.countP_eq, List.countP_cons, List.countP_cons, same]
  simp

namespace Counts
variable {rings : SlotId → Option WorkRingId} {counts : WorkRingId → Option Nat} {k : SlotId} {n : WorkRingId} {c : Nat}

theorem empty (none : ∀ k, rings k = none) (zero : ∀ n c, counts n = some c → c = 0) : Counts rings counts where
  present k n hk := nomatch (none k).symm.trans hk
  counted n c hc := by simp [zero n c hc, none]
  limited n c hc := by simp [zero n c hc]

/-- A free slot is filled with a task of a ring below its limit. -/
theorem fill (h : Counts rings counts) (free : rings k = none) (hc : counts n = some c)
    (below : c < if n = 0 then 1 else 4) :
    Counts (Function.update rings k (some n)) (Function.update counts n (some (c + 1))) where
  present j m hj := by
    by_cases e : m = n
    · simp [e]
    · rw [Function.update_of_ne e]
      by_cases hjk : j = k
      · rw [hjk, Function.update_self] at hj
        exact absurd (Option.some.inj hj).symm e
      · rw [Function.update_of_ne hjk] at hj
        exact h.present j m hj
  counted m a ha := by
    rw [countP_vacate _ k, Function.update_idem, ← free, Function.update_eq_self, Function.update_self]
    by_cases e : m = n
    · subst e
      rw [Function.update_self] at ha
      cases ha
      simp [h.counted _ c hc]
    · rw [Function.update_of_ne e] at ha
      simp [h.counted m a ha, Ne.symm e]
  limited m a ha := by
    by_cases e : m = n
    · subst e
      rw [Function.update_self] at ha
      cases ha
      exact below
    · rw [Function.update_of_ne e] at ha
      exact h.limited m a ha

/-- A slot that holds a task of a ring is freed. -/
theorem vacate (h : Counts rings counts) (held : rings k = some n) (hc : counts n = some c) :
    Counts (Function.update rings k none) (Function.update counts n (some (c - 1))) where
  present j m hj := by
    by_cases hjk : j = k
    · rw [hjk, Function.update_self] at hj
      cases hj
    · rw [Function.update_of_ne hjk] at hj
      by_cases e : m = n
      · simp [e]
      · rw [Function.update_of_ne e]
        exact h.present j m hj
  counted m a ha := by
    have before := countP_vacate rings k m
    by_cases e : m = n
    · subst e
      rw [Function.update_self] at ha
      cases ha
      rw [if_pos held, ← h.counted m c hc] at before
      omega
    · rw [Function.update_of_ne e] at ha
      rwa [held, if_neg (fun x => e (Option.some.inj x).symm), ← h.counted m a ha] at before
  limited m a ha := by
    by_cases e : m = n
    · subst e
      rw [Function.update_self] at ha
      cases ha
      exact Nat.le_trans (Nat.sub_le ..) (h.limited m c hc)
    · rw [Function.update_of_ne e] at ha
      exact h.limited m a ha

/-- No slot names a ring that is absent or counts none. -/
theorem unnamed (h : Counts rings counts) (hn : counts n = none ∨ counts n = some 0) (k : SlotId) : rings k ≠ some n :=
  fun hk => by
    rcases hn with hn | hn
    · exact h.present k n hk hn
    · have none := List.countP_eq_zero.mp (h.counted n 0 hn).symm k (List.mem_finRange k)
      simp [hk] at none

/-- A ring no slot names is made, with a count of 0, or becomes ABSENT. -/
theorem remake (h : Counts rings counts) (hn : counts n = none ∨ counts n = some 0) {x : Option Nat}
    (hx : ∀ c, x = some c → c = 0) : Counts rings (Function.update counts n x) where
  present k m hk := by
    have e : m ≠ n := fun e => h.unnamed hn k (e ▸ hk)
    rw [Function.update_of_ne e]
    exact h.present k m hk
  counted m a ha := by
    by_cases e : m = n
    · subst e
      rw [Function.update_self] at ha
      rw [hx a ha]
      exact (List.countP_eq_zero.mpr fun k _ => by simp [h.unnamed hn k]).symm
    · rw [Function.update_of_ne e] at ha
      exact h.counted m a ha
  limited m a ha := by
    by_cases e : m = n
    · subst e
      rw [Function.update_self] at ha
      simp [hx a ha]
    · rw [Function.update_of_ne e] at ha
      exact h.limited m a ha

end Counts

/-! ### What the changes make of the slots' rings and the counts -/

theorem SameWork.taskRing {s t : State} (h : SameWork s t) : t.taskRing = s.taskRing := funext h.slots

theorem SameWork.ringCount {s t : State} (h : SameWork s t) : t.ringCount = s.ringCount := funext fun n => by
  have e := congrArg (Option.map WorkRing.inFlight) (h.workRings n)
  rw [Option.map_map, Option.map_map] at e
  exact e

theorem State.setSlot_taskRing (s : State) (k : SlotId) (x : Option Task) :
    (s.setSlot k x).taskRing = Function.update s.taskRing k (x.map Task.ring) := funext fun j => by
  rw [State.taskRing, State.setSlot_slots, get_set, Function.update_apply]
  simp only [eq_comm (a := j)]
  split <;> rfl

theorem State.setWorkRing_ringCount (s : State) (n : WorkRingId) (x : Option WorkRing) :
    (s.setWorkRing n x).ringCount = Function.update s.ringCount n (x.map WorkRing.inFlight) := funext fun m => by
  rw [State.ringCount, State.setWorkRing_workRings, get_set, Function.update_apply]
  simp only [eq_comm (a := m)]
  split <;> rfl

namespace TaskTableSound
variable {s t : State}

theorem keep (h : TaskTableSound s) (same : SameWork s t) : TaskTableSound t := by
  rw [taskTableSound_iff, same.taskRing, same.ringCount]
  exact (taskTableSound_iff s).mp h

theorem of_empty (slots : ∀ k : SlotId, s.slots[k] = none)
    (idle : ∀ (n : WorkRingId) (w : WorkRing), s.workRings[n] = some w → w.inFlight = 0) : TaskTableSound s := by
  refine (taskTableSound_iff s).mpr (.empty (fun k => by rw [State.taskRing, slots k, Option.map_none]) fun n c hc => ?_)
  obtain ⟨w, hw, rfl⟩ := Option.map_eq_some_iff.mp hc
  exact idle n w hw

theorem taken (h : TaskTableSound s) {c : Choice} {k : SlotId} {w : WorkRing} {q : ResultRing}
    (chosen : s.choose = some c) (free : s.slots[k] = none) (hw : s.workRings[c.ring] = some w)
    (hq : s.resultRings[w.resultRing] = some q) : TaskTableSound (s.takeInto c k w q) := by
  have filled := ((taskTableSound_iff s).mp h).fill (k := k) (n := c.ring) (c := w.inFlight)
    (by rw [State.taskRing, free, Option.map_none]) (by rw [State.ringCount, hw, Option.map_some])
    (Eligible.of_choose chosen hw hq).belowLimit
  refine (taskTableSound_iff _).mpr ?_
  rwa [show (s.takeInto c k w q).taskRing = _ from s.setSlot_taskRing k (some ⟨c.ring, w.taken, .reading, .none⟩),
    show (s.takeInto c k w q).ringCount = _ from s.setWorkRing_ringCount c.ring
      (some { w with taken := w.taken + 1, inFlight := w.inFlight + 1 })]

/-- A ring no task names is made, with a count of 0, or becomes ABSENT. -/
theorem remake (h : TaskTableSound s) {n : WorkRingId} {x : Option WorkRing}
    (before : ∀ w, s.workRings[n] = some w → w.inFlight = 0) (after : ∀ w, x = some w → w.inFlight = 0) :
    TaskTableSound (s.setWorkRing n x) := by
  rw [taskTableSound_iff, State.setWorkRing_ringCount]
  refine ((taskTableSound_iff s).mp h).remake ?_ fun c hc => ?_
  · cases hw : s.workRings[n] with
    | none => exact .inl (by rw [State.ringCount, hw, Option.map_none])
    | some w => exact .inr (by rw [State.ringCount, hw, Option.map_some, before w hw])
  · obtain ⟨w, hw, rfl⟩ := Option.map_eq_some_iff.mp hc
    exact after w hw

theorem freeSlot (h : TaskTableSound s) (k : SlotId) : TaskTableSound (s.freeSlot k) := by
  unfold State.freeSlot
  split
  · exact h
  · next x hx =>
    dsimp only
    split
    · next absent => exact absurd absent (h.present k x hx)
    · next w hw =>
      have vacated := ((taskTableSound_iff s).mp h).vacate (k := k) (n := x.ring) (c := w.inFlight)
        (by rw [State.taskRing, hx, Option.map_some]) (by rw [State.ringCount]; exact hw ▸ rfl)
      have same : SameWork ((s.setSlot k none).setWorkRing x.ring (some { w with inFlight := w.inFlight - 1 }))
          (({ s with slots := mapBank (Option.map (Task.forgetSlot k)) (s.slots.set k none) } : State).setWorkRing x.ring
            (some { w with inFlight := w.inFlight - 1 })) :=
        { SameWork.refl _ with
          slots := fun j => by
            show Option.map Task.ring (mapBank _ _)[j] = Option.map Task.ring (s.slots.set k none)[j]
            rw [get_mapBank, Option.map_map]
            exact congrArg (Option.map · _) (funext fun y => y.forgetSlot_ring k) }
      refine TaskTableSound.keep ?_ same
      rw [taskTableSound_iff, State.setWorkRing_ringCount]
      exact (s.setSlot_taskRing k none) ▸ vacated

theorem change (h : TaskTableSound s) (c : Change s t) : TaskTableSound t := by
  cases c with
  | steady steady => exact h.keep steady.sameWork
  | halted why m d =>
    refine of_empty none_bank fun n w hw => ?_
    obtain ⟨v, -, e⟩ := Option.map_eq_some_iff.mp ((get_ofFn _ n).symm.trans hw)
    cases e
    rfl
  | torn m d => exact of_empty none_bank fun n w hw => nomatch (none_bank n).symm.trans hw
  | taken chosen free present bound => exact h.taken chosen free present bound
  | @posted n w _ present =>
    have count := congrArg (Option.map WorkRing.inFlight) present
    rw [taskTableSound_iff, State.setWorkRing_ringCount]
    rw [Option.map_some, ← show s.ringCount n = some w.inFlight from count, Function.update_eq_self]
    exact (taskTableSound_iff s).mp h
  | created base size m absent _ =>
    exact h.remake (fun w hw => nomatch absent.symm.trans hw) fun w e => by cases e; rfl
  | deleted present idle =>
    exact h.remake (fun w hw => by cases present.symm.trans hw; exact idle) fun _ e => nomatch e
  | noticed id => exact h.keep (.emitNotice s id)
  | produced n => exact h.keep (.recordProduced s n)
  | freed ended m => exact ((h.keep (Steady.endDone ended).sameWork).keep (.recordProduced _ m)).freeSlot _
  | released | resultCreated | resultDeleted | placed | setup => exact h.keep { SameWork.refl s with }

theorem started (h : StoppedEmpty s) (c : Started s t) : TaskTableSound t := by
  obtain ⟨starting, e, s', u, ended, -, rfl⟩ := c
  have slots := h.slots (by simp [starting]) (by simp [starting])
  obtain ⟨rings, -⟩ := h.blocks (.inr starting)
  have before : TaskTableSound s :=
    of_empty slots fun n w hw => nomatch (rings n).symm.trans hw
  have made := (before.keep (Steady.endDone ended).sameWork).remake (n := 0)
    (x := some (WorkRing.fresh u.controlBase u.controlSize 0 none)) (fun w hw => ?_) fun w e => by cases e; rfl
  · exact made.keep (.completeStartUp s' u)
  · exact nomatch ((Steady.endDone ended).sameWork.workRing_none.mpr (rings 0)).symm.trans hw

end TaskTableSound

/-! ## Every step -/

theorem workRingsSound_exec (i : Instr) (s : State) (h : WorkRingsSound s) : Leaves (exec i s) WorkRingsSound :=
  fun t e => (exec_changes i s t e).elim (fun c => c.keep (fun _ _ => .change) h) h.started

theorem taskTableSound_exec (i : Instr) (s : State) (h : TaskTableSound s) (empty : StoppedEmpty s) :
    Leaves (exec i s) TaskTableSound :=
  fun t e => (exec_changes i s t e).elim (fun c => c.keep (fun _ _ => .change) h) (.started empty)

/-- Settles O54, by one lemma for each change a command can make: the take keeps the posted index within the ring since
the ring was not empty, and each slot filled or freed moves its ring's count by one. -/
theorem workRingsStaySound : Obligations.WorkRingsStaySound := by
  unfold Obligations.WorkRingsStaySound
  constructor
  · intro s t h e
    exact step_keeps (P := WorkRingsSound) (fun s rest h => { h with }) workRingsSound_exec h e
  · intro s t h empty e
    have both : TaskTableSound t ∧ StoppedEmpty t :=
      step_keeps (P := fun s => TaskTableSound s ∧ StoppedEmpty s) (fun s rest h => ⟨{ h.1 with }, { h.2 with }⟩)
        (fun i s h u hu => ⟨taskTableSound_exec i s h.1 h.2 u hu, stoppedEmpty_exec i s h.2 u hu⟩) ⟨h, empty⟩ e
    exact both.1

end Sys2Proof.Machine
end

section
/-! The result rings stay sound (R131, R143 to R147, R155): what their invariant says of the list of result writes in
flight, and one lemma per change. -/
namespace Sys2Proof.Machine

/-! ## The invariant, read from the list of result writes -/

/-- The ring index of a result write on a ring. -/
def TransferKind.indexOn (n : ResultRingId) : TransferKind → Option RingIndex
  | .completion _ m i | .notice _ m i => if m = n then some i else none
  | .setupRead | .zeroing | .recordRead _ _ _ | .gridRead _ | .snapshot _ | .writeBack _ => none

/-- Two result writes are not both the completion of one slot. -/
def TransferKind.Apart (x y : TransferKind) : Prop := ∀ k n i m j, x = .completion k n i → y ≠ .completion k m j

/-- A result ring with the indexes of its writes in flight: room, order and rise (R143, R145, R146). -/
structure ResultRing.Sound (q : ResultRing) (l : List RingIndex) : Prop where
  size : q.size ≤ 1024
  room : (q.placed - q.released).toNat + q.reserved ≤ q.size
  order : (q.produced - q.released).toNat ≤ (q.placed - q.released).toNat
  rising : l.Pairwise fun i j => (i - q.released).toNat < (j - q.released).toNat
  between : ∀ i ∈ l, (q.produced - q.released).toNat ≤ (i - q.released).toNat ∧
    (i - q.released).toNat < (q.placed - q.released).toNat

/-- A ring with its writes; an ABSENT one has none. -/
def WritesSound : Option ResultRing → List RingIndex → Prop
  | none, l => l = []
  | some q, l => q.Sound l

/-- A slot holds a task in WRITING of a work ring bound to the result ring (R131). -/
def State.WritesTo (s : State) (k : SlotId) (n : ResultRingId) : Prop :=
  ∃ t w, s.slots[k] = some t ∧ t.isWriting = true ∧ s.workRings[t.ring] = some w ∧ w.resultRing = n

/-- Every result write in flight has its writer, and a slot has one at most (R131, R155). -/
structure WritersSound (s : State) : Prop where
  completion : ∀ k n i, .completion k n i ∈ s.resultWrites → s.WritesTo k n
  single : s.resultWrites.Pairwise TransferKind.Apart
  notice : ∀ id n i, .notice id n i ∈ s.resultWrites → (s.stations[id]).Notifies n

theorem Task.isWriting_iff (t : Task) : t.isWriting = true ↔ ∃ r c image, t.phase = .writing r c image := by
  unfold Task.isWriting
  split
  · next r c image h => exact ⟨fun _ => ⟨r, c, image, h⟩, fun _ => rfl⟩
  all_goals
    next h => exact ⟨(nomatch ·), fun ⟨r, c, image, e⟩ => nomatch h.symm.trans e⟩

/-- The indexes of a ring's writes in flight, read from the result writes of all rings. -/
theorem writesOf_eq (s : State) (n : ResultRingId) :
    writesOf s n = s.resultWrites.filterMap (TransferKind.indexOn n) := by
  unfold writesOf State.resultWrites
  rw [List.filterMap_filter, List.filterMap_map]
  refine List.filterMap_congr fun x _ => ?_
  obtain ⟨kind, -⟩ := x
  cases kind <;> rfl

theorem mem_resultWrites {s : State} {x : TransferKind} (h : x.isResult = true) :
    x ∈ s.resultWrites ↔ ∃ y ∈ s.transfers, y.kind = x := by
  unfold State.resultWrites
  rw [List.mem_filter, List.mem_map]
  exact ⟨fun ⟨m, _⟩ => m, fun m => ⟨m, h⟩⟩

/-- Only completions tell two writes apart, so the other transfers in flight do not matter. -/
theorem apart_iff (s : State) : s.resultWrites.Pairwise TransferKind.Apart ↔
    s.transfers.Pairwise fun x y => ∀ k n i m j, x.kind = .completion k n i → y.kind ≠ .completion k m j := by
  unfold State.resultWrites
  rw [List.pairwise_filter, List.pairwise_map]
  refine List.Pairwise.iff fun x y => ⟨fun h k n i m j hx hy => ?_, fun h _ _ => h⟩
  exact h (by rw [hx]; rfl) (by rw [hy]; rfl) k n i m j hx hy

theorem resultRingsSound_iff (s : State) : ResultRingsSound s ↔
    (∀ u, s.heldSetup = some u → u.resultSize ≤ 1024) ∧
      (∀ n : ResultRingId, WritesSound s.resultRings[n] (writesOf s n)) ∧ WritersSound s := by
  constructor
  · intro h
    refine ⟨h.held, fun n => ?_, ⟨fun k n i m => ?_, (apart_iff s).mpr h.single, fun id n i m => ?_⟩⟩
    · cases hq : s.resultRings[n] with
      | none => exact h.absent n hq
      | some q => exact ⟨h.size n q hq, h.room n q hq, h.order n q hq, h.rising n q hq, h.between n q hq⟩
    · obtain ⟨x, hx, kind⟩ := (mem_resultWrites rfl).mp m
      obtain ⟨t, w, record, c, image, held, phase, present, bound⟩ := h.completion x hx k n i kind
      exact ⟨t, w, held, t.isWriting_iff.mpr ⟨record, c, image, phase⟩, present, bound⟩
    · obtain ⟨x, hx, kind⟩ := (mem_resultWrites rfl).mp m
      exact h.notice x hx id n i kind
  · rintro ⟨held, rings, writers⟩
    have sound {n : ResultRingId} {q : ResultRing} (hq : s.resultRings[n] = some q) : q.Sound (writesOf s n) := by
      have h := rings n
      rwa [hq] at h
    exact {
      held
      size := fun n q hq => (sound hq).size
      room := fun n q hq => (sound hq).room
      order := fun n q hq => (sound hq).order
      rising := fun n q hq => (sound hq).rising
      between := fun n q hq => (sound hq).between
      absent := fun n hq => by
        have h := rings n
        rwa [hq] at h
      completion := fun x hx k n i kind => by
        obtain ⟨t, w, slot, writing, present, bound⟩ := writers.completion k n i ((mem_resultWrites rfl).mpr ⟨x, hx, kind⟩)
        obtain ⟨record, c, image, phase⟩ := t.isWriting_iff.mp writing
        exact ⟨t, w, record, c, image, slot, phase, present, bound⟩
      single := (apart_iff s).mp writers.single
      notice := fun x hx id n i kind => writers.notice id n i ((mem_resultWrites rfl).mpr ⟨x, hx, kind⟩) }

/-! ## One ring -/

namespace ResultRing.Sound
variable {q : ResultRing} {l : List RingIndex}

theorem sublist (h : q.Sound l) {r : List RingIndex} (sub : r.Sublist l) : q.Sound r :=
  { h with
    rising := h.rising.sublist sub
    between := fun i hi => h.between i (sub.subset hi) }

theorem congr (h : q.Sound l) {p : ResultRing} (size : p.size = q.size) (placed : p.placed = q.placed)
    (produced : p.produced = q.produced) (released : p.released = q.released) (reserved : p.reserved ≤ q.reserved) :
    p.Sound l where
  size := size ▸ h.size
  room := by
    have := h.room
    rw [placed, released, size]
    omega
  order := by rw [placed, produced, released]; exact h.order
  rising := by rw [released]; exact h.rising
  between := by rw [placed, produced, released]; exact h.between

/-- A slot is reserved in a ring with an unreserved free slot (R144). -/
theorem reserve (h : q.Sound l) (room : (q.placed - q.released).toNat + q.reserved < q.size) :
    ({ q with reserved := q.reserved + 1 } : ResultRing).Sound l :=
  { h with room }

/-- A record is placed (R145). -/
theorem place (h : q.Sound l) {r : Nat} (room : (q.placed - q.released).toNat + 1 + r ≤ q.size) :
    ({ q with placed := q.placed + 1, reserved := r } : ResultRing).Sound (l ++ [q.placed]) := by
  have small := h.size
  have order := h.order
  have step : (q.placed + 1 - q.released).toNat = (q.placed - q.released).toNat + 1 := by bv_omega
  exact {
    size := small
    room := by dsimp only; omega
    order := by dsimp only; omega
    rising := by
      refine List.pairwise_append.mpr ⟨h.rising, List.pairwise_singleton .., fun i hi j hj => ?_⟩
      rw [List.mem_singleton.mp hj]
      exact (h.between i hi).2
    between := fun i hi => by
      dsimp only
      rw [step]
      rcases List.mem_append.mp hi with hi | hi
      · obtain ⟨low, high⟩ := h.between i hi
        omega
      · rw [List.mem_singleton.mp hi]
        omega }

/-- The produced index moves to the oldest write in flight, or to the placed index (R146). -/
theorem produce (h : q.Sound l) (unsignalled : Nat) :
    ({ q with produced := l.head?.getD q.placed, unsignalled } : ResultRing).Sound l := by
  cases l with
  | nil => exact { h with order := Nat.le_refl _, between := fun _ hi => nomatch hi }
  | cons i rest =>
    obtain ⟨-, high⟩ := h.between i List.mem_cons_self
    obtain ⟨first, -⟩ := List.pairwise_cons.mp h.rising
    exact { h with
      order := Nat.le_of_lt high
      between := fun j hj => by
        refine ⟨?_, (h.between j hj).2⟩
        rcases List.mem_cons.mp hj with rfl | hj
        · exact Nat.le_refl _
        · exact Nat.le_of_lt (first j hj) }

/-- The released index moves up to the produced one at most, and every distance shrinks by as much (R147). -/
theorem release (h : q.Sound l) {new : RingIndex} (within : (new - q.released).toNat ≤ (q.produced - q.released).toNat) :
    ({ q with released := new } : ResultRing).Sound l := by
  have shrinks {i : RingIndex} (hi : (q.produced - q.released).toNat ≤ (i - q.released).toNat) :
      (i - new).toNat = (i - q.released).toNat - (new - q.released).toNat := by
    bv_omega
  have low (i : RingIndex) (hi : i ∈ l) := shrinks (h.between i hi).1
  have produced := shrinks (Nat.le_refl _)
  have placed := shrinks h.order
  have room := h.room
  have order := h.order
  exact {
    size := h.size
    room := by dsimp only; omega
    order := by dsimp only; omega
    rising := h.rising.imp_of_mem fun {i j} hi hj lt => by
      have := (h.between i hi).1
      rw [low i hi, low j hj]
      omega
    between := fun i hi => by
      have := h.between i hi
      rw [low i hi, produced, placed]
      omega }

theorem fresh {size : Nat} (small : size ≤ 1024) (base : Address) (threshold : Nat) :
    (ResultRing.fresh base size threshold).Sound [] where
  size := small
  room := by simp [ResultRing.fresh]
  order := Nat.le_refl _
  rising := .nil
  between _ hi := nomatch hi

end ResultRing.Sound

theorem WritesSound.sublist {o : Option ResultRing} {l r : List RingIndex} (h : WritesSound o l) (sub : r.Sublist l) :
    WritesSound o r := by
  cases o with
  | none => exact List.sublist_nil.mp (h ▸ sub)
  | some q => exact ResultRing.Sound.sublist h sub

/-- A released index that passes its check lies between the released and the produced one (R147). -/
theorem releaseCheck_within {q : ResultRing} {new : RingIndex} (h : q.releaseCheck new = none) :
    (new - q.released).toNat ≤ (q.produced - q.released).toNat := by
  unfold ResultRing.releaseCheck at h
  split at h
  · cases h
  · split at h
    · cases h
    · next within => exact Nat.le_of_not_lt within

theorem Task.forgetSlot_isWriting (k : SlotId) (x : Task) : (x.forgetSlot k).isWriting = x.isWriting := by
  unfold Task.forgetSlot
  split
  · next h => simp [Task.isWriting, h]
  · rfl

/-! ## Changes that request no result write -/

/-- A change that requests no result write, leaves each ring sound beside its writes, and leaves their writers. -/
structure KeepsWrites (s t : State) : Prop where
  held : ∀ u, t.heldSetup = some u → s.heldSetup = some u ∨ u.resultSize ≤ 1024
  rings : ∀ n : ResultRingId, WritesSound s.resultRings[n] (writesOf t n) → WritesSound t.resultRings[n] (writesOf t n)
  resultWrites : t.resultWrites.Sublist s.resultWrites
  completion : ∀ k n i, .completion k n i ∈ t.resultWrites → s.WritesTo k n → t.WritesTo k n
  notice : ∀ id n i, .notice id n i ∈ t.resultWrites → (s.stations[id]).Notifies n → (t.stations[id]).Notifies n

theorem KeepsWrites.refl (s : State) : KeepsWrites s s where
  held _ h := .inl h
  rings _ h := h
  resultWrites := .refl _
  completion _ _ _ _ h := h
  notice _ _ _ _ h := h

/-- One result ring is written. -/
theorem KeepsWrites.setResultRing {s : State} {n : ResultRingId} {x : Option ResultRing}
    (h : WritesSound s.resultRings[n] (writesOf s n) → WritesSound x (writesOf s n)) :
    KeepsWrites s (s.setResultRing n x) :=
  { KeepsWrites.refl s with
    rings := fun m hm => by
      rw [State.setResultRing_resultRings, get_set]
      split
      · next e =>
        subst e
        exact h hm
      · exact hm }

/-- One work ring is written. -/
theorem KeepsWrites.setWorkRing {s : State} {n : WorkRingId} {x : Option WorkRing}
    (h : ∀ k m i t w, .completion k m i ∈ s.resultWrites → s.slots[k] = some t → t.ring = n → s.workRings[n] = some w →
      ∃ v, x = some v ∧ v.resultRing = w.resultRing) :
    KeepsWrites s (s.setWorkRing n x) :=
  { KeepsWrites.refl s with
    completion := fun k m i hi ⟨t, w, held, writing, present, bound⟩ => by
      by_cases e : t.ring = n
      · obtain ⟨v, hx, hv⟩ := h k m i t w hi held e (e ▸ present)
        exact ⟨t, v, held, writing, by rw [State.setWorkRing_workRings, get_set, if_pos e.symm, hx], hv.trans bound⟩
      · exact ⟨t, w, held, writing, by
          rw [State.setWorkRing_workRings, get_set, if_neg (Ne.symm e)]; exact present, bound⟩ }

theorem Steady.keepsWrites {s t : State} (h : Steady s t) : KeepsWrites s t where
  held u hu := .inl (h.heldSetup u hu)
  rings n sound := by
    have e := h.resultRings n
    revert sound e
    cases s.resultRings[n] with
    | none =>
      intro sound e
      rw [Option.map_eq_none_iff.mp e]
      exact sound
    | some q =>
      intro sound e
      obtain ⟨p, hp, hf⟩ := Option.map_eq_some_iff.mp (e : _ = some q.footing)
      have size : p.footing.size = q.footing.size := congrArg _ hf
      have placed : p.footing.placed = q.footing.placed := congrArg _ hf
      have produced : p.footing.produced = q.footing.produced := congrArg _ hf
      have released : p.footing.released = q.footing.released := congrArg _ hf
      have reserved : p.footing.reserved = q.footing.reserved := congrArg _ hf
      rw [hp]
      exact ResultRing.Sound.congr (p := p) sound size placed produced released (Nat.le_of_eq reserved)
  resultWrites := h.resultWrites
  completion k n i _ := fun ⟨x, w, held, writing, present, bound⟩ => by
    obtain ⟨y, hy, yw⟩ := (h.slots k).writing x held writing
    have ring := (h.slots k).ring
    rw [held, hy, Option.map_some, Option.map_some] at ring
    have rings := h.workRings x.ring
    rw [present] at rings
    obtain ⟨v, hv, hf⟩ := Option.map_eq_some_iff.mp (rings : _ = some w.footing)
    have result : v.footing.resultRing = w.footing.resultRing := congrArg _ hf
    have same := congrArg (fun m : WorkRingId => t.workRings[m]) (Option.some.inj ring)
    exact ⟨y, v, hy, yw, same.trans hv, Eq.trans result bound⟩
  notice := h.notices

namespace KeepsWrites
variable {s : State}

/-- All result writes are abandoned. -/
theorem of_none {t : State} (held : t.heldSetup = none) (writes : t.resultWrites = [])
    (rings : ∀ n : ResultRingId, WritesSound s.resultRings[n] [] → WritesSound t.resultRings[n] []) : KeepsWrites s t where
  held u hu := nomatch held.symm.trans hu
  rings n := by
    rw [writesOf_eq, writes]
    exact rings n
  resultWrites := writes ▸ List.nil_sublist _
  completion k n i hi := by simp [writes] at hi
  notice id n i hi := by simp [writes] at hi

theorem haltedAs (s : State) (why : HaltCause) (m : Memory) (d : Nat) : KeepsWrites s (haltedAs s why m d) := by
  refine of_none rfl ?_ fun n sound => ?_
  · refine List.filter_eq_nil_iff.mpr fun x hx => ?_
    obtain ⟨y, hy, rfl⟩ := List.mem_map.mp hx
    obtain ⟨-, back⟩ := List.mem_filter.mp hy
    revert back
    unfold Transfer.isWriteBack
    split
    · next e => simp [e, TransferKind.isResult]
    · simp
  · rw [show (Machine.haltedAs s why m d).resultRings[n] = _ from get_ofFn _ n]
    revert sound
    cases s.resultRings[n] with
    | none => exact id
    | some q => exact fun sound => ResultRing.Sound.congr sound rfl rfl rfl rfl (Nat.zero_le _)

theorem tornDown (s : State) (m : Memory) (d : Nat) : KeepsWrites s (tornDown s m d) :=
  of_none rfl rfl fun n _ => by
    rw [show (Machine.tornDown s m d).resultRings[n] = _ from none_bank n]
    rfl

theorem takeInto {c : Choice} {k : SlotId} {w : WorkRing} {q : ResultRing} (chosen : s.choose = some c)
    (free : s.slots[k] = none) (hw : s.workRings[c.ring] = some w) (hq : s.resultRings[w.resultRing] = some q) :
    KeepsWrites s (s.takeInto c k w q) := by
  have reserved : KeepsWrites s (s.setResultRing w.resultRing (some { q with reserved := q.reserved + 1 })) :=
    setResultRing fun sound => by
      rw [hq] at sound
      exact ResultRing.Sound.reserve sound (Eligible.of_choose chosen hw hq).room
  have advanced : KeepsWrites s
      (s.setWorkRing c.ring (some { w with taken := w.taken + 1, inFlight := w.inFlight + 1 })) :=
    setWorkRing fun _ _ _ _ v _ _ _ hv => ⟨_, rfl, by cases hw.symm.trans hv; rfl⟩
  have writes : (s.takeInto c k w q).resultWrites = s.resultWrites := by
    simp [State.resultWrites, State.takeInto, TransferKind.isResult]
  exact {
    held := fun u hu => .inl hu
    rings := fun n => by
      rw [writesOf_eq, writes, ← writesOf_eq]
      exact reserved.rings n
    resultWrites := writes ▸ .refl _
    completion := fun j n i hi wt => by
      obtain ⟨t, v, held, writing, present, bound⟩ := advanced.completion j n i (writes ▸ hi) wt
      have other : k ≠ j := fun e => nomatch (e ▸ free).symm.trans held
      exact ⟨t, v, by
        rw [show (s.takeInto c k w q).slots[j] = _ from get_set _ k j _, if_neg other]; exact held, writing, present, bound⟩
    notice := fun _ _ _ _ h => h }

theorem recordProduced (s : State) (n : ResultRingId) : KeepsWrites s (s.recordProduced n) := by
  cases h : s.resultRings[n] with
  | none =>
    rw [State.recordProduced_absent h]
    exact refl s
  | some q =>
    have first : s.transfers.findSome? (Transfer.resultIndex n) = (writesOf s n).head? := List.head?_filterMap.symm
    have writes : (s.recordProduced n).resultWrites = s.resultWrites := by
      rw [State.recordProduced_spec h]
      simp [State.resultWrites, producedWriteBack, requested, TransferKind.isResult]
    have moved (unsignalled : Nat) : KeepsWrites s (s.setResultRing n
        (some { q with produced := (writesOf s n).head?.getD q.placed, unsignalled })) :=
      setResultRing fun sound => by
        rw [h] at sound
        exact ResultRing.Sound.produce sound unsignalled
    exact {
      held := fun u hu => .inl (by rwa [State.recordProduced_spec h] at hu)
      rings := fun m => by
        rw [writesOf_eq, writes, ← writesOf_eq, State.recordProduced_spec h, first]
        exact (moved _).rings m
      resultWrites := writes ▸ .refl _
      completion := fun j m i _ wt => by rwa [State.recordProduced_spec h]
      notice := fun id m i _ wt => by rwa [State.recordProduced_stations] }

end KeepsWrites

namespace ResultRingsSound
variable {s t : State}

theorem writers (h : ResultRingsSound s) : WritersSound s := ((resultRingsSound_iff s).mp h).2.2

theorem ring (h : ResultRingsSound s) (n : ResultRingId) : WritesSound s.resultRings[n] (writesOf s n) :=
  ((resultRingsSound_iff s).mp h).2.1 n

theorem keep (h : ResultRingsSound s) (k : KeepsWrites s t) : ResultRingsSound t := by
  have writers := h.writers
  refine (resultRingsSound_iff t).mpr ⟨fun u hu => (k.held u hu).elim (h.held u) id, fun n => ?_, ?_⟩
  · have sub : (writesOf t n).Sublist (writesOf s n) := by
      rw [writesOf_eq, writesOf_eq]
      exact k.resultWrites.filterMap _
    exact k.rings n ((h.ring n).sublist sub)
  · exact {
      completion := fun j n i hi => k.completion j n i hi (writers.completion j n i (k.resultWrites.subset hi))
      single := writers.single.sublist k.resultWrites
      notice := fun id n i hi => k.notice id n i hi (writers.notice id n i (k.resultWrites.subset hi)) }

/-- A result write is requested: its record takes the placed index of its ring (R145, R155). -/
theorem request (h : ResultRingsSound s) {kind : TransferKind} {n : ResultRingId} {q : ResultRing} {r : Nat}
    (hq : s.resultRings[n] = some q) (room : (q.placed - q.released).toNat + 1 + r ≤ q.size)
    (index : ∀ m, kind.indexOn m = if n = m then some q.placed else none) (held : t.heldSetup = s.heldSetup)
    (rings : t.resultRings = s.resultRings.set n (some { q with placed := q.placed + 1, reserved := r }))
    (writes : t.resultWrites = s.resultWrites ++ [kind]) (writers : WritersSound t) : ResultRingsSound t := by
  refine (resultRingsSound_iff t).mpr ⟨held ▸ h.held, fun m => ?_, writers⟩
  have sound := h.ring m
  rw [writesOf_eq] at sound
  rw [writesOf_eq, writes, List.filterMap_append, rings, get_set]
  split
  · next e =>
    subst e
    rw [hq] at sound
    rw [List.filterMap_cons_some ((index n).trans (if_pos rfl)), List.filterMap_nil]
    exact ResultRing.Sound.place sound room
  · next other =>
    rwa [List.filterMap_cons_none ((index m).trans (if_neg other)), List.filterMap_nil, List.append_nil]

theorem placed (h : ResultRingsSound s) {k : SlotId} {x : Task} {w : WorkRing} {q : ResultRing} (c : Completion)
    (held : s.slots[k] = some x) (writing : x.isWriting = true) (present : s.workRings[x.ring] = some w)
    (bound : s.resultRings[w.resultRing] = some q) (first : ∀ n i, .completion k n i ∉ s.resultWrites)
    (reserved : 1 ≤ q.reserved) : ResultRingsSound (s.placeCompletion k w.resultRing q c) := by
  have room := h.room _ _ bound
  have writers := h.writers
  have writes : (s.placeCompletion k w.resultRing q c).resultWrites =
      s.resultWrites ++ [.completion k w.resultRing q.placed] := by
    simp [State.resultWrites, State.placeCompletion, TransferKind.isResult]
  refine h.request bound (r := q.reserved - 1) (by omega) (fun _ => rfl) rfl rfl writes ?_
  exact {
    completion := fun j n i hi => by
      rcases List.mem_append.mp (writes ▸ hi) with hi | hi
      · exact writers.completion j n i hi
      · cases List.mem_singleton.mp hi
        exact ⟨x, w, held, writing, present, rfl⟩
    single := by
      rw [writes]
      refine List.pairwise_append.mpr ⟨writers.single, List.pairwise_singleton .., fun y hy z hz => ?_⟩
      cases List.mem_singleton.mp hz
      intro j n i m a e e'
      cases e'
      exact first n i (e ▸ hy)
    notice := fun id n i hi => by
      rcases List.mem_append.mp (writes ▸ hi) with hi | hi
      · exact writers.notice id n i hi
      · cases List.mem_singleton.mp hi }

theorem noticed (h : ResultRingsSound s) (id : StationId) : ResultRingsSound (s.emitNotice id) := by
  rcases s.emitNotice_cases id with ⟨e, -⟩ | ⟨c, q, hc, hq, -, room, -, e⟩
  · rwa [e]
  · have writers := h.writers
    have writes : (s.emitNotice id).resultWrites = s.resultWrites ++ [.notice id c.noticeRing q.placed] := by
      rw [e]
      simp [State.resultWrites, requested, TransferKind.isResult]
    have stations (j : StationId) : (s.emitNotice id).stations[j] = if id = j then
        .opened { c with pendingSet := 0, noticeArmed := false, noticeInFlight := true } else s.stations[j] := by
      rw [e]
      exact get_set ..
    refine h.request hq (r := q.reserved) (by omega) (fun _ => rfl) (by rw [e]) (by rw [e]) writes ?_
    exact {
      completion := fun j n i hi => by
        rcases List.mem_append.mp (writes ▸ hi) with hi | hi
        · rw [e]
          exact writers.completion j n i hi
        · cases List.mem_singleton.mp hi
      single := by
        rw [writes]
        refine List.pairwise_append.mpr ⟨writers.single, List.pairwise_singleton .., fun y _ z hz => ?_⟩
        cases List.mem_singleton.mp hz
        intro j n i m a _ e'
        cases e'
      notice := fun j n i hi => by
        rw [stations]
        split
        · next e =>
          subst e
          refine ⟨_, rfl, ?_, rfl⟩
          rcases List.mem_append.mp (writes ▸ hi) with hi | hi
          · obtain ⟨d, hd, ring, -⟩ := writers.notice _ n i hi
            rw [hc] at hd
            cases hd
            exact ring
          · cases List.mem_singleton.mp hi
            rfl
        · next other =>
          rcases List.mem_append.mp (writes ▸ hi) with hi | hi
          · exact writers.notice j n i hi
          · cases List.mem_singleton.mp hi
            exact absurd rfl other }

/-- A slot with no result write in flight becomes FREE (R131). -/
theorem freeSlot (h : ResultRingsSound s) {k : SlotId} (last : ∀ n i, .completion k n i ∉ s.resultWrites) :
    ResultRingsSound (s.freeSlot k) := by
  have left {j : SlotId} {n : ResultRingId} {i : RingIndex} (hi : .completion j n i ∈ s.resultWrites) {x : Task}
      (held : s.slots[j] = some x) :
      (mapBank (Option.map (Task.forgetSlot k)) (s.slots.set k none))[j] = some (x.forgetSlot k) := by
    have other : k ≠ j := fun e => last n i (e ▸ hi)
    rw [get_mapBank, get_set, if_neg other, held, Option.map_some]
  have vacated : KeepsWrites s { s with slots := mapBank (Option.map (Task.forgetSlot k)) (s.slots.set k none) } :=
    { KeepsWrites.refl s with
      completion := fun j n i hi ⟨x, w, held, writing, present, bound⟩ =>
        ⟨x.forgetSlot k, w, left hi held, (x.forgetSlot_isWriting k).trans writing,
          (congrArg (fun m : WorkRingId => s.workRings[m]) (x.forgetSlot_ring k)).trans present, bound⟩ }
  unfold State.freeSlot
  split
  · exact h
  · dsimp only
    split
    · exact h.keep vacated
    · next v hv =>
      exact (h.keep vacated).keep (.setWorkRing fun _ _ _ _ w _ _ _ hw => ⟨_, rfl, by cases hv.symm.trans hw; rfl⟩)

/-- The end of a slot's completion leaves no result write of the slot in flight (R131). -/
theorem ended_last (h : ResultRingsSound s) {k : SlotId} {n : ResultRingId} {i : RingIndex} {e : Nat}
    (ended : s.endDone (.completion k n i) e = some t) (m : ResultRingId) (j : RingIndex) :
    .completion k m j ∉ t.resultWrites := fun hj => by
  obtain ⟨x, found, -, _, rfl, -⟩ := State.endDone_eq_some ended
  obtain ⟨y, hy, kind⟩ := (mem_resultWrites rfl).mp hj
  have matched : (x.kind == .completion k n i && x.epoch == e) = true := by simpa using List.find?_some found
  obtain ⟨z, before, after, -, hz, whole, rest⟩ := List.exists_of_eraseP
    (p := fun x : Transfer => x.kind == .completion k n i && x.epoch == e) (List.mem_of_find?_eq_some found) matched
  have ends : z.kind = .completion k n i := eq_of_beq (Bool.and_eq_true_iff.mp hz).1
  have apart := h.single
  rw [whole, List.pairwise_append, List.pairwise_cons] at apart
  obtain ⟨-, ⟨later, -⟩, earlier⟩ := apart
  rcases List.mem_append.mp (rest ▸ hy : y ∈ before ++ after) with hy | hy
  · exact earlier y hy z List.mem_cons_self k m j n i kind ends
  · exact later y hy k n i m j ends kind

/-- A ring no writer and no station with a NOTICE in flight is bound to has no write in flight (R150). -/
theorem unused (h : ResultRingsSound s) {n : ResultRingId}
    (unbound : ∀ (m : WorkRingId) (w : WorkRing), s.workRings[m] = some w → w.resultRing ≠ n)
    (unnotified : ∀ id : StationId, ¬(s.stations[id]).Notifies n) : writesOf s n = [] := by
  rw [writesOf_eq]
  refine List.filterMap_eq_nil_iff.mpr fun x hx => ?_
  cases x with
  | completion k m i =>
    obtain ⟨t, w, -, -, present, bound⟩ := h.writers.completion k m i hx
    exact if_neg fun e => unbound _ w present (bound.trans e)
  | notice id m i =>
    refine if_neg fun e => unnotified id ?_
    subst e
    exact h.writers.notice id m i hx
  | setupRead | zeroing | recordRead | gridRead | snapshot | writeBack => rfl

theorem change (h : ResultRingsSound s) (table : TaskTableSound s) (c : Change s t) : ResultRingsSound t := by
  cases c with
  | steady steady => exact h.keep steady.keepsWrites
  | halted why m d => exact h.keep (.haltedAs s why m d)
  | torn m d => exact h.keep (.tornDown s m d)
  | taken chosen free present bound => exact h.keep (.takeInto chosen free present bound)
  | posted present =>
    exact h.keep (.setWorkRing fun _ _ _ _ w _ _ _ hw => ⟨_, rfl, by cases present.symm.trans hw; rfl⟩)
  | created base size m absent =>
    exact h.keep (.setWorkRing fun _ _ _ _ w _ _ _ hw => nomatch absent.symm.trans hw)
  | @deleted n w present idle =>
    refine h.keep (.setWorkRing fun k _ _ x _ _ held ring _ => ?_)
    have count : s.ringCount n = some 0 := by rw [State.ringCount, present, Option.map_some, idle]
    have named : s.taskRing k = some n := by rw [State.taskRing, held, Option.map_some, ring]
    exact absurd named (((taskTableSound_iff s).mp table).unnamed (.inr count) k)
  | released present passes =>
    exact h.keep (.setResultRing fun sound => by
      rw [present] at sound
      exact ResultRing.Sound.release sound (releaseCheck_within passes))
  | resultCreated base threshold absent small =>
    exact h.keep (.setResultRing fun sound => by
      rw [absent] at sound
      exact (show _ = [] from sound) ▸ ResultRing.Sound.fresh small base threshold)
  | resultDeleted unbound unnotified => exact h.keep (.setResultRing fun _ => h.unused unbound unnotified)
  | noticed id => exact h.noticed id
  | placed c held writing present bound first reserved => exact h.placed c held writing present bound first reserved
  | produced n => exact h.keep (.recordProduced s n)
  | freed ended m =>
    refine ((h.keep (Steady.endDone ended).keepsWrites).keep (.recordProduced _ m)).freeSlot fun n i hi => ?_
    exact h.ended_last ended n i ((KeepsWrites.recordProduced _ m).resultWrites.subset hi)
  | setup small => exact h.keep { KeepsWrites.refl s with held := fun u hu => .inr (by cases hu; exact small) }

end ResultRingsSound

/-! ## Every step -/

/-- With every ring ABSENT, the end of start-up is a run of changes: the two rings of the setup block are made (R163). -/
theorem Started.changes {s t : State} (h : Started s t) (empty : StoppedEmpty s)
    (small : ∀ u, s.heldSetup = some u → u.resultSize ≤ 1024) : Changes s t := by
  obtain ⟨starting, e, s', u, ended, held, rfl⟩ := h
  obtain ⟨workRings, resultRings, -⟩ := empty.blocks (.inr starting)
  have before := Steady.endDone ended
  have noWork : s'.workRings[(0 : WorkRingId)] = none := before.sameWork.workRing_none.mpr (workRings 0)
  have noResult : s'.resultRings[(0 : ResultRingId)] = none := by
    have e := before.resultRings 0
    rwa [resultRings 0, Option.map_none, Option.map_eq_none_iff] at e
  have control : WeightAllowed 0 none := ⟨fun _ => rfl, fun nonzero => absurd rfl nonzero⟩
  exact ((before.run.tail (.created u.controlBase u.controlSize 0 noWork control)).tail
    (.resultCreated u.resultBase u.resultThreshold noResult (small u held))).trans (Steady.completeStartUp s' u).run

theorem exec_changes_of_stoppedEmpty (i : Instr) (s : State) (empty : StoppedEmpty s)
    (small : ∀ u, s.heldSetup = some u → u.resultSize ≤ 1024) : Leaves (exec i s) (Changes s) :=
  fun t e => (exec_changes i s t e).elim id fun c => c.changes empty small

/-- Settles O55, by one lemma for each change a command can make: a record placed extends the rising indexes of its ring's
writes at the placed index, an end moves the produced index to the first of those left, and a release moves no index past
the produced one. -/
theorem resultRingsStaySound : Obligations.ResultRingsStaySound := by
  unfold Obligations.ResultRingsStaySound
  intro s t rings table empty e
  have kept : (ResultRingsSound t ∧ TaskTableSound t) ∧ StoppedEmpty t :=
    step_keeps (P := fun s => (ResultRingsSound s ∧ TaskTableSound s) ∧ StoppedEmpty s)
      (fun s rest ⟨⟨rings, table⟩, empty⟩ => ⟨⟨{ rings with }, { table with }⟩, { empty with }⟩)
      (fun i s ⟨both, empty⟩ u hu => by
        have run := exec_changes_of_stoppedEmpty i s empty both.1.held
        exact ⟨Changes.keep (P := fun s => ResultRingsSound s ∧ TaskTableSound s)
          (fun _ _ ⟨rings, table⟩ c => ⟨rings.change table c, table.change c⟩) (run u hu) both,
          stoppedEmpty_exec i s empty u hu⟩)
      ⟨⟨rings, table⟩, empty⟩ e
  exact kept.1.1

end Sys2Proof.Machine
end

section
/-! POST_WORK: its checks in their order and its effect (R120, R174, R188). -/
namespace Sys2Proof.Machine

section postCheck
variable {w : WorkRing} {new : RingIndex}

theorem WorkRing.postCheck_overrun (h : w.size < (new - w.taken).toNat) : w.postCheck new = some .overrun := if_pos h

theorem WorkRing.postCheck_regress (h : (new - w.taken).toNat ≤ w.size) (back : w.size < (new - w.posted).toNat) :
    w.postCheck new = some .regress :=
  (if_neg (Nat.not_lt.mpr h)).trans (if_pos back)

theorem WorkRing.postCheck_passes (h : (new - w.taken).toNat ≤ w.size) (ahead : (new - w.posted).toNat ≤ w.size) :
    w.postCheck new = none :=
  (if_neg (Nat.not_lt.mpr h)).trans (if_neg (Nat.not_lt.mpr ahead))

end postCheck

section postWork
variable {s : State} {v : Register} {n : WorkRingId} {w : WorkRing}

theorem execPostWork_post (hm : s.link.memorySpace = true) (ho : postOperation v = 1#4) :
    execPostWork v s = .next (s.postWork v) := by
  rw [execPostWork, State.reached_of_memorySpace hm, State.writePost, if_pos ho]

theorem State.postWork_noId (h : 8 ≤ (postRing v).toNat) : s.postWork v = rejectedAs s v .noRing := by
  rw [State.postWork, idOf_of_le h]
  exact s.reject_spec v _

theorem State.postWork_absent (hn : (postRing v).toNat = n.val) (hw : s.workRings[n] = none) :
    s.postWork v = rejectedAs s v .noRing := by
  simp only [State.postWork, hn, idOf_val, hw, State.reject_spec]

theorem State.postWork_rejects (hn : (postRing v).toNat = n.val) (hw : s.workRings[n] = some w) {reason : RejectReason}
    (h : w.postCheck (postIndex v) = some reason) : s.postWork v = rejectedAs s v reason := by
  simp only [State.postWork, hn, idOf_val, hw, h, State.reject_spec]

theorem State.postWork_posts (hn : (postRing v).toNat = n.val) (hw : s.workRings[n] = some w)
    (h : w.postCheck (postIndex v) = none) :
    s.postWork v = s.setWorkRing n (some { w with posted := postIndex v }) := by
  simp only [State.postWork, hn, idOf_val, hw, h]

end postWork

/-- Settles O10: the checks in their order, then the posted index. -/
theorem postWorkChecks : Obligations.PostWorkChecks := by
  unfold Obligations.PostWorkChecks
  intro s v hm ho
  have write := execPostWork_post hm ho
  refine ⟨fun h => write.trans (congrArg _ (State.postWork_noId h)), fun n hn =>
    ⟨fun hw => write.trans (congrArg _ (State.postWork_absent hn hw)), fun w hw => ⟨fun beyond => ?_, fun within back => ?_,
      fun within ahead => ?_⟩⟩⟩
  · exact write.trans (congrArg _ (State.postWork_rejects hn hw (WorkRing.postCheck_overrun beyond)))
  · exact write.trans (congrArg _ (State.postWork_rejects hn hw (WorkRing.postCheck_regress within back)))
  · exact write.trans (congrArg _ (State.postWork_posts hn hw (WorkRing.postCheck_passes within ahead)))

end Sys2Proof.Machine
end

section
/-! The scheduler's answers (R130, R151 to R153), and the two work ring commands with their checks in their order (R133 to
R138). -/
namespace Sys2Proof.Machine

section scheduler
variable {s : State} {k : SlotId} {t : Task} {r : Block64}

/-! ## QUERY_DEVICE, BAD_KIND and RECORD_UNREADABLE -/

theorem execQueryDevice_of_runs (hr : Runs s k t r 0x01) :
    execQueryDevice k s = .next (if t.ring ≠ 0 then s.answer k t r .wrongRing .blank
      else s.answer k t r .ok (.queryDevice (freeBlocks s.sets) (freeSetIds s.sets) s.freeSlots)) :=
  congrArg _ (State.executing_of_runs (kind := Kind.queryDevice) hr _)

theorem length_filter_toList {α : Type} {n : Nat} (v : Vector α n) (p : α → Bool) :
    (v.toList.filter p).length = (List.finRange n).countP fun i => p v[i] := by
  rw [toList_eq_map_finRange, ← List.countP_eq_length_filter, List.countP_map]
  rfl

theorem StagingSet.eq_free_iff (x : StagingSet) : (x == .free) = (x.state == .free) := by
  cases x <;> rfl

theorem freeSetIds_eq (sets : Vector StagingSet 8) :
    freeSetIds sets = (List.finRange 8).countP fun i => (sets[i]).state == .free := by
  rw [freeSetIds, length_filter_toList]
  exact List.countP_congr fun i _ => by rw [StagingSet.eq_free_iff]

theorem State.freeSlots_eq (s : State) : s.freeSlots = (List.finRange 8).countP fun j => (s.slots[j]).isNone :=
  length_filter_toList s.slots Option.isNone

theorem execBadKind_of_runs (hr : Runs s k t r (recordKind r)) (unknown : recordKind r ∉ Kind.known) :
    execBadKind k s = .next (s.answer k t r .badKind .blank) := by
  simp only [execBadKind, State.ready_of_runs hr, List.contains_eq_mem, unknown, decide_false, Bool.false_eq_true, if_false]

/-- A task with the unreadable mark whose turn it is (R153). -/
theorem State.ready_unreadable (held : s.slots[k] = some t) (queued : t.phase = .queued none)
    (turn : ∀ j : SlotId, ∀ u ∈ s.slots[j], u.before t → u.executed) : s.ready k = some (t, none) := by
  have first := (s.earlierAll_iff t Task.executed).mpr turn
  unfold State.ready
  simp [held, queued, first]

theorem execRecordUnreadable_of_ready (h : s.ready k = some (t, none)) :
    execRecordUnreadable k s = .next (s.setSlot k (some { t with
      phase := .writing none
        { status := .recordUnreadable, tag := 0xFFFF#16, ring := t.ring, station := 0xFF#8, body := .unreadable t.index }
        none })) := by
  rw [execRecordUnreadable, h]

end scheduler

/-- Settles O29: each answer changes the task's own slot alone; the counts of QUERY_DEVICE are those of the banks. -/
theorem schedulerAnswers : Obligations.SchedulerAnswers := by
  unfold Obligations.SchedulerAnswers
  refine ⟨fun s k t r hr => ⟨fun other => ?_, fun control => ?_⟩, fun s k t r hr unknown => ?_,
    fun s k t held queued turn => ?_⟩
  · exact (execQueryDevice_of_runs hr).trans (congrArg _ (if_pos other))
  · rw [← freeSetIds_eq, ← s.freeSlots_eq]
    exact (execQueryDevice_of_runs hr).trans (congrArg _ (if_neg (not_not.mpr control)))
  · exact execBadKind_of_runs hr unknown
  · exact execRecordUnreadable_of_ready (State.ready_unreadable held queued turn)

section rings
variable {s : State} {k : SlotId} {t : Task} {r : Block64} {n : WorkRingId} {m : ResultRingId} {w : WorkRing}

/-! ## CREATE_WORK_RING -/

/-- The fields of a CREATE_WORK_RING record in range (R134). -/
abbrev CreateWorkInRange (r : Block64) : Prop :=
  (1 ≤ recordByte8 r ∧ recordByte8 r ≤ 7) ∧ (recordAddress r).toNat % 64 = 0 ∧ RingSize (recordSize r) ∧
    recordByte9 r ≤ 3 ∧ 1 ≤ recordByteA r ∧ recordByteA r ≤ 8

theorem createRequest_of (h8 : recordByte8 r = n.val) (h9 : recordByte9 r = m.val) (h : CreateWorkInRange r) :
    createRequest r = some ⟨n, m⟩ := by
  obtain ⟨⟨low, -⟩, address, size, -, weight⟩ := h
  have hn : n ≠ 0 := by
    rintro rfl
    rw [h8] at low
    exact absurd low (by decide)
  unfold createRequest
  simp only [h8, h9, idOf_val]
  exact if_pos ⟨hn, address, (ringSizeAccepted_iff _).mpr size, weight⟩

theorem createRequest_range {q : CreateRequest} (h : createRequest r = some q) : CreateWorkInRange r := by
  unfold createRequest at h
  split at h
  · next n m hn hm =>
    split at h
    · next hc =>
      obtain ⟨nonzero, address, size, weight⟩ := hc
      have ring : n.val ≠ 0 := fun e => nonzero (Fin.ext e)
      have work := n.isLt
      have result := m.isLt
      rw [← idOf_eq_some hn] at ring work
      rw [← idOf_eq_some hm] at result
      exact ⟨⟨by omega, by omega⟩, address, (ringSizeAccepted_iff _).mp size, by omega, weight⟩
    · cases h
  · cases h

theorem State.createCheck_wrongRing (h : t.ring ≠ 0) : s.createCheck t r = .error .wrongRing := if_pos h

theorem State.createCheck_badField (h : t.ring = 0) (hf : ¬CreateWorkInRange r) :
    s.createCheck t r = .error .badField := by
  unfold State.createCheck
  rw [if_neg (not_not.mpr h)]
  split
  · rfl
  · next request => exact absurd (createRequest_range request) hf

theorem State.createCheck_noRing (h : t.ring = 0) (request : createRequest r = some ⟨n, m⟩)
    (hq : s.resultRings[m] = none) : s.createCheck t r = .error .noRing := by
  unfold State.createCheck
  simp only [if_neg (not_not.mpr h), request, hq, Option.isNone_none, if_true]

theorem State.createCheck_exists (h : t.ring = 0) (request : createRequest r = some ⟨n, m⟩)
    (hq : s.resultRings[m] ≠ none) (hw : s.workRings[n] ≠ none) : s.createCheck t r = .error .ringExists := by
  unfold State.createCheck
  simp only [if_neg (not_not.mpr h), request, Option.isNone_iff_eq_none, if_neg hq, if_pos (Option.isSome_iff_ne_none.mpr hw)]

theorem State.createCheck_ok (h : t.ring = 0) (request : createRequest r = some ⟨n, m⟩)
    (hq : s.resultRings[m] ≠ none) (hw : s.workRings[n] = none) : s.createCheck t r = .ok ⟨n, m⟩ := by
  unfold State.createCheck
  simp only [if_neg (not_not.mpr h), request, Option.isNone_iff_eq_none, if_neg hq, hw, Option.isSome_none,
    Bool.false_eq_true, if_false]

theorem execCreateWorkRing_fails (hr : Runs s k t r 0x02) {status : Status} (h : s.createCheck t r = .error status) :
    execCreateWorkRing k s = .next { s with slots := s.slots.set k (some (answered t r status .blank)) } := by
  rw [execCreateWorkRing, State.executing_of_runs (kind := Kind.createWorkRing) hr, h]
  rfl

/-- The ring made, with the write-back of its taken index 0 (R135). -/
theorem execCreateWorkRing_creates (hr : Runs s k t r 0x02) (h : s.createCheck t r = .ok ⟨n, m⟩) :
    execCreateWorkRing k s = .next { s with
      workRings := s.workRings.set n (some
        { state := .active, base := recordAddress r, size := recordSize r, resultRing := m,
          weight := some (recordByteA r), posted := 0, taken := 0, written := 0, inFlight := 0 })
      transfers := s.transfers ++ [takenWriteBack s n 0]
      slots := s.slots.set k (some (answered t r .ok (.createWorkRing n.val m.val (recordSize r)))) } := by
  rw [execCreateWorkRing, State.executing_of_runs (kind := Kind.createWorkRing) hr, h]
  rfl

/-! ## DELETE_WORK_RING -/

theorem homedOn_any_iff : s.stations.toList.any (·.homedOn n) = true ↔
    ∃ id : StationId, ∃ c, (s.stations[id]).station = some c ∧ c.homeRing = n := by
  rw [toList_any]
  refine exists_congr fun id => ?_
  unfold Context.homedOn
  cases (s.stations[id]).station with
  | none => simp
  | some c => simp

theorem State.deleteCheck_wrongRing (h : t.ring ≠ 0) : s.deleteCheck t r = .error .wrongRing := if_pos h

theorem State.deleteCheck_badField (h : t.ring = 0) (hf : recordByte8 r = 0 ∨ 8 ≤ recordByte8 r) :
    s.deleteCheck t r = .error .badField := by
  unfold State.deleteCheck
  rw [if_neg (not_not.mpr h)]
  rcases hf with zero | high
  · rw [zero]
    rfl
  · rw [idOf_of_le high]

theorem State.deleteCheck_noRing (h : t.ring = 0) (hn : n ≠ 0) (h8 : recordByte8 r = n.val)
    (hw : s.workRings[n] = none) : s.deleteCheck t r = .error .noRing := by
  unfold State.deleteCheck
  simp only [if_neg (not_not.mpr h), h8, idOf_val, if_neg hn, hw]

/-- A present ring is deleted unless it is a station's home ring (R136). -/
theorem State.deleteCheck_present (h : t.ring = 0) (hn : n ≠ 0) (h8 : recordByte8 r = n.val)
    (hw : s.workRings[n] = some w) :
    s.deleteCheck t r = if s.stations.toList.any (·.homedOn n) then .error .ringInUse else .ok (n, w) := by
  unfold State.deleteCheck
  simp only [if_neg (not_not.mpr h), h8, idOf_val, if_neg hn, hw]

theorem execDeleteWorkRing_fails (hr : Runs s k t r 0x03) {status : Status} (h : s.deleteCheck t r = .error status) :
    execDeleteWorkRing k s = .next { s with slots := s.slots.set k (some (answered t r status .blank)) } := by
  rw [execDeleteWorkRing, State.executing_of_runs (kind := Kind.deleteWorkRing) hr, h]
  rfl

/-- The ring DRAINING, and its deleting task in DRAIN_WAIT (R137). -/
def drainingAs (s : State) (k : SlotId) (t : Task) (r : Block64) (n : WorkRingId) (w : WorkRing) : State :=
  { s with
    workRings := s.workRings.set n (some { w with state := .draining })
    slots := s.slots.set k (some { t with phase := .drainWait r (.delete n) }) }

theorem execDeleteWorkRing_drains (hr : Runs s k t r 0x03) (h : s.deleteCheck t r = .ok (n, w)) :
    execDeleteWorkRing k s = .next ((drainingAs s k t r n w).endDeleteDrain k) := by
  rw [execDeleteWorkRing, State.executing_of_runs (kind := Kind.deleteWorkRing) hr, h]
  rfl

theorem drainingAs_slot : (drainingAs s k t r n w).slots[k] = some { t with phase := .drainWait r (.delete n) } := by
  rw [show (drainingAs s k t r n w).slots[k] = _ from get_set _ k k _, if_pos rfl]

theorem drainingAs_ring : (drainingAs s k t r n w).workRings[n] = some { w with state := .draining } := by
  rw [show (drainingAs s k t r n w).workRings[n] = _ from get_set _ n n _, if_pos rfl]

/-- With tasks of the ring in flight, the deletion waits (R137). -/
theorem endDeleteDrain_drainingAs_busy (busy : w.inFlight ≠ 0) :
    (drainingAs s k t r n w).endDeleteDrain k = drainingAs s k t r n w :=
  State.endDeleteDrain_of_waiting drainingAs_slot rfl drainingAs_ring busy

/-- With nothing of the ring in flight, the deletion ends in the event of the command (R138). -/
theorem endDeleteDrain_drainingAs_idle (idle : w.inFlight = 0) :
    (drainingAs s k t r n w).endDeleteDrain k = deletedAs s k t r n w := by
  rw [State.endDeleteDrain_of_due drainingAs_slot rfl drainingAs_ring idle]
  simp only [deletedAs, drainingAs, Vector.set_set]
  rfl

end rings

/-- Settles O30: the checks in their order, then the ring made. -/
theorem createWorkRing : Obligations.CreateWorkRing := by
  unfold Obligations.CreateWorkRing
  intro s k t r hr fields fails
  have fail {status : Status} (h : s.createCheck t r = .error status) : fails status := execCreateWorkRing_fails hr h
  refine ⟨fun h => fail (State.createCheck_wrongRing h), fun h hf => fail (State.createCheck_badField h hf),
    fun n m h hf h8 h9 => ?_⟩
  have request := createRequest_of h8 h9 hf
  exact ⟨fun hq => fail (State.createCheck_noRing h request hq),
    fun hq hw => fail (State.createCheck_exists h request hq hw),
    fun hq hw => execCreateWorkRing_creates hr (State.createCheck_ok h request hq hw)⟩

/-- Settles O31: the checks in their order; then the drain waits, or ends in the same event. -/
theorem deleteWorkRing : Obligations.DeleteWorkRing := by
  unfold Obligations.DeleteWorkRing
  intro s k t r hr fails
  have fail {status : Status} (h : s.deleteCheck t r = .error status) : fails status := execDeleteWorkRing_fails hr h
  refine ⟨fun h => fail (State.deleteCheck_wrongRing h), fun h hf => fail (State.deleteCheck_badField h hf),
    fun n h hn h8 => ⟨fun hw => fail (State.deleteCheck_noRing h hn h8 hw), fun w hw => ?_⟩⟩
  have check := State.deleteCheck_present h hn h8 hw
  refine ⟨fun home => fail ?_, fun homeless => ?_⟩
  · rw [check, if_pos (homedOn_any_iff.mpr home)]
  · have passes : s.deleteCheck t r = .ok (n, w) := by
      rw [check, if_neg fun home => by
        obtain ⟨id, c, hc, e⟩ := homedOn_any_iff.mp home
        exact homeless id c hc e]
    have drains := execDeleteWorkRing_drains hr passes
    exact ⟨fun busy => drains.trans (congrArg _ (endDeleteDrain_drainingAs_busy busy)),
      fun idle => ⟨_, rfl, drains.trans (congrArg _ (endDeleteDrain_drainingAs_idle idle))⟩⟩

end Sys2Proof.Machine
end

section
/-! Transfers that end failed and halt the controller (R167, R181 to R183), write-backs (R182, R189), and the end of
start-up (R162, R163). -/
namespace Sys2Proof.Machine

/-! ## A failed end that halts -/

theorem abandonedByHalt_without (s : State) (kind : TransferKind) (e : Nat) :
    abandonedByHalt { s with transfers := without s kind e } ⊆ abandonedByHalt s :=
  ((List.eraseP_sublist).filter _).subset

/-- A transfer that passes nothing tears nothing. -/
theorem Torn.of_read {x : Transfer} {xs : List Transfer} {m n : Memory} (h : Torn (x :: xs) m n) {size : Nat}
    (read : x.payload = .read size) : Torn xs m n := fun a =>
  (h a).imp id fun ⟨y, hy, carried, data, i, write, r⟩ => by
    rcases List.mem_cons.mp hy with rfl | hy
    · exact nomatch read.symm.trans write
    · exact ⟨y, hy, carried, data, i, write, r⟩

section failedEnd
variable {s : State} {kind : TransferKind} {e : Nat} {x : Transfer}

/-- A transfer ends failed and the controller halts: memory is torn by that transfer and by those abandoned (R167). -/
theorem State.endFailed_halts (halts : Halts s) (h : oldest s kind e = some x) (why : HaltCause) :
    ∃ s' m d, s.endFailed kind e = some s' ∧
      s'.halt why = haltedAs { s with transfers := without s kind e } why m d ∧
      Torn (x :: abandonedByHalt s) s.hostMemory m := by
  obtain ⟨m, d, ended, torn⟩ := State.endFailed_torn h
  obtain ⟨m', d', halted, torn'⟩ :=
    State.halt_spec (s := { s with transfers := without s kind e, hostMemory := m, draws := d }) halts why
  exact ⟨_, m', d', ended, halted, torn.trans (torn'.mono (abandonedByHalt_without s kind e))⟩

/-- In HALTED a failed end leaves what reached memory, and the halt request is ignored (R168, R182). -/
theorem State.endFailed_halted (halted : s.controller = .halted) (h : oldest s kind e = some x) (why : HaltCause) :
    ∃ s' m d, s.endFailed kind e = some s' ∧
      s'.halt why = { s with transfers := without s kind e, hostMemory := m, draws := d } ∧ Torn [x] s.hostMemory m := by
  obtain ⟨m, d, ended, torn⟩ := State.endFailed_torn h
  exact ⟨_, m, d, ended, State.halt_of_not (fun h => by simp [Halts, halted] at h) why, torn⟩

end failedEnd

/-! ## Result writes and write-backs -/

section ends
variable {s s' : State} {n : ResultRingId} {i : RingIndex} {place : Place} {e : Nat} {x : Transfer}

theorem execResultWriteFault_of (h : oldestResult s n i e = some x) (ended : s.endFailed x.kind e = some s') :
    execResultWriteFault n i s e = .next (s'.halt .resultWriteFault) := by
  have found : s.resultInFlight n i e = some x := h
  simp only [execResultWriteFault, found, ended]

theorem execWritebackFault_of (ended : s.endFailed (.writeBack place) e = some s') :
    execWritebackFault place s e = .next (s'.halt .writebackFault) := by
  simp only [execWritebackFault, ended]

theorem execWritebackDone_of (ended : s.endDone (.writeBack place) e = some s') :
    execWritebackDone place s e = .next s' := by
  simp only [execWritebackDone, ended]

end ends

/-- Settles O27: a failed end that halts, one that HALTED ignores, and the value in its place. -/
theorem resultAndWriteBackEnds : Obligations.ResultAndWriteBackEnds := by
  unfold Obligations.ResultAndWriteBackEnds
  refine ⟨fun s ring index x e halts hx => ?_, fun s place x e data hx write =>
    ⟨fun halts => ?_, fun halted => ?_, fun done => ?_⟩⟩
  · obtain ⟨s', m, d, ended, halt, torn⟩ := State.endFailed_halts halts (oldest_of_oldestResult hx) .resultWriteFault
    exact ⟨m, d, (execResultWriteFault_of hx ended).trans (congrArg _ halt), torn⟩
  · obtain ⟨s', m, d, ended, halt, torn⟩ := State.endFailed_halts halts hx .writebackFault
    exact ⟨m, d, (execWritebackFault_of ended).trans (congrArg _ halt), torn⟩
  · obtain ⟨s', m, d, ended, ignored, torn⟩ := State.endFailed_halted halted hx .writebackFault
    exact ⟨m, d, (execWritebackFault_of ended).trans (congrArg _ ignored), torn⟩
  · exact execWritebackDone_of (State.endDone_write hx done write)

/-! ## The setup read -/

theorem setupAccepted_iff (b : Block64) : setupAccepted b = true ↔ SetupInRange b := by
  have full (offset : Nat) : (BitVec.ofNat 64 (content b offset 8)).toNat = content b offset 8 :=
    Nat.mod_eq_of_lt (content_lt b offset 8)
  simp only [setupAccepted, setupOf, full, Bool.and_eq_true, beq_iff_eq, ringSizeAccepted_iff]
  constructor
  · rintro ⟨⟨⟨⟨⟨⟨⟨format, control⟩, controlSize⟩, result⟩, resultSize⟩, low⟩, high⟩, writeBack⟩
    exact ⟨format, control, controlSize, result, resultSize, of_decide_eq_true low, of_decide_eq_true high, writeBack⟩
  · intro h
    exact ⟨⟨⟨⟨⟨⟨⟨h.format, h.controlBase⟩, h.controlSize⟩, h.resultBase⟩, h.resultSize⟩,
      decide_eq_true h.thresholdLow⟩, decide_eq_true h.thresholdHigh⟩, h.writeBack⟩

section setup
variable {s s' : State} {b : Block64} {u : Setup} {e : Nat}

/-- An accepted block is held and the zeroing requested; any other halts (R162). -/
theorem execSetupReadDone_of (starting : s.controller = .starting) (ended : s.endDone .setupRead e = some s') :
    execSetupReadDone b s e = .next (if setupAccepted b then
      ({ s' with heldSetup := some (setupOf b) } : State).issue .zeroing (setupOf b).writeBack
        (.write (List.replicate 32 0)) else s'.halt .setupInvalid) := by
  simp only [execSetupReadDone, starting, ended]

theorem execSetupReadFault_of (ended : s.endFailed .setupRead e = some s') :
    execSetupReadFault s e = .next (s'.halt .setupReadFault) := by
  simp only [execSetupReadFault, ended]

theorem execWritebackZeroingDone_of (starting : s.controller = .starting) (ended : s.endDone .zeroing e = some s')
    (held : s.heldSetup = some u) : execWritebackZeroingDone s e = .next (s'.completeStartUp u) := by
  simp only [execWritebackZeroingDone, starting, ended, held]

theorem execWritebackZeroingFault_of (ended : s.endFailed .zeroing e = some s') :
    execWritebackZeroingFault s e = .next (s'.halt .writebackFault) := by
  simp only [execWritebackZeroingFault, ended]

end setup

/-! ## The end of start-up -/

/-- Two causes set in one event are one change of CAUSE (R172, R173). -/
theorem State.setCause_setCause (s : State) (j k : Cause) :
    (s.setCause j).setCause k = { s with
      cause := s.cause ||| (j.bit ||| k.bit), messages := messagesAfter s (s.cause ||| (j.bit ||| k.bit)) s.mask } := by
  have twice := messagesAfter_twice s (s.setCause j) j.bit k.bit (State.setCause_spec s j)
  rw [BitVec.or_assoc] at twice
  rw [State.setCause_spec (s.setCause j), ← twice, State.setCause_spec, BitVec.or_assoc]

/-- The end of start-up: the two rings, the state by CTRL.QUIESCE and the causes (R119, R142, R163, R167). -/
theorem State.completeStartUp_spec (s : State) (u : Setup) :
    s.completeStartUp u = { s with
      controller := if s.quiesceBit then .quiesced else .running
      heldSetup := none
      writeBackAddress := u.writeBack
      workRings := s.workRings.set 0 (some (WorkRing.fresh u.controlBase u.controlSize 0 none))
      resultRings := s.resultRings.set 0 (some (ResultRing.fresh u.resultBase u.resultSize u.resultThreshold))
      cause := s.cause ||| if s.quiesceBit then 0x30#8 else 0x10#8
      messages := messagesAfter s (s.cause ||| if s.quiesceBit then 0x30#8 else 0x10#8) s.mask } := by
  unfold State.completeStartUp
  cases hq : s.quiesceBit with
  | true =>
    simp only [if_true]
    exact State.setCause_setCause _ .ready .quiesced
  | false =>
    simp only [Bool.false_eq_true, if_false]
    exact State.setCause_spec _ .ready

/-- Settles O5: the ends of the setup read and of the zeroing write. -/
theorem startUpEnds : Obligations.StartUpEnds := by
  unfold Obligations.StartUpEnds
  refine ⟨fun s b x e starting hx read => ⟨fun done accepted => ?_, fun done refused => ?_, ?_⟩,
    fun s u x e data starting held hx write => ⟨fun done => ?_, ?_⟩⟩
  · have ends := execSetupReadDone_of (b := b) starting (State.endDone_read hx done ⟨64, read⟩)
    rw [if_pos ((setupAccepted_iff b).mpr accepted)] at ends
    exact ends
  · have ends := execSetupReadDone_of (b := b) starting (State.endDone_read hx done ⟨64, read⟩)
    rw [if_neg fun accepted => refused ((setupAccepted_iff b).mp accepted)] at ends
    obtain ⟨m, d, halted, torn⟩ :=
      State.halt_spec (s := { s with transfers := without s .setupRead e }) (.inl starting) .setupInvalid
    exact ⟨m, d, ends.trans (congrArg _ halted), torn.mono (abandonedByHalt_without s .setupRead e)⟩
  · obtain ⟨s', m, d, ended, halted, torn⟩ := State.endFailed_halts (.inl starting) hx .setupReadFault
    exact ⟨m, d, (execSetupReadFault_of ended).trans (congrArg _ halted), torn.of_read read⟩
  · have ends := execWritebackZeroingDone_of starting (State.endDone_write hx done write) held
    rw [State.completeStartUp_spec] at ends
    exact ends
  · obtain ⟨s', m, d, ended, halted, torn⟩ := State.endFailed_halts (.inl starting) hx .writebackFault
    exact ⟨m, d, (execWritebackZeroingFault_of ended).trans (congrArg _ halted), torn⟩

end Sys2Proof.Machine
end

section
/-! Commands out of turn change nothing (R129, R176, R195; log entries 1 and 20). -/
namespace Sys2Proof.Machine

/-! ## Executions -/

/-- The execution commands with the kinds of their records (R151). -/
def executions (k : SlotId) : List (Instr × Nat) :=
  [(.queryDevice k, 0x01), (.createWorkRing k, 0x02), (.deleteWorkRing k, 0x03), (.createResultRing k, 0x04),
    (.deleteResultRing k, 0x05), (.openStation k, 0x08), (.closeStation k, 0x09), (.readStation k, 0x0A),
    (.measure k, 0x10), (.freeze k, 0x11), (.thaw k, 0x12), (.reseek k, 0x13), (.setActuators k, 0x14),
    (.ackNotice k, 0x15), (.stageOpen k, 0x18), (.stagePut k, 0x19), (.stageCommit k, 0x1A), (.stageDiscard k, 0x1B)]

/-- Each is an act of the task whose turn it is, if its record is of the kind (R129). -/
theorem exec_of_executions (s : State) (k : SlotId) :
    ∀ c ∈ executions k, ∃ act, exec c.1 s = .next (s.executing k c.2 act) := by
  simp only [executions, List.forall_mem_cons, List.not_mem_nil, false_implies, implies_true, and_true]
  exact ⟨⟨_, rfl⟩, ⟨_, rfl⟩, ⟨_, rfl⟩, ⟨_, rfl⟩, ⟨_, rfl⟩, ⟨_, rfl⟩, ⟨_, rfl⟩, ⟨_, rfl⟩, ⟨_, rfl⟩, ⟨_, rfl⟩, ⟨_, rfl⟩,
    ⟨_, rfl⟩, ⟨_, rfl⟩, ⟨_, rfl⟩, ⟨_, rfl⟩, ⟨_, rfl⟩, ⟨_, rfl⟩, ⟨_, rfl⟩⟩

section idle
variable {s : State} {k : SlotId}

theorem execBadKind_idle (h : ∀ t r, Runs s k t r (recordKind r) → recordKind r ∈ Kind.known) :
    execBadKind k s = .next s := by
  unfold execBadKind
  split
  · next t r ready =>
    rw [if_pos (List.contains_iff_mem.mpr (h t r (State.runs_of_ready ready)))]
  · rfl

/-- The unreadable mark stands on a task whose turn it is (R153). -/
theorem State.unreadable_of_ready {t : Task} (h : s.ready k = some (t, none)) :
    s.slots[k] = some t ∧ t.phase = .queued none ∧ ∀ j : SlotId, ∀ u ∈ s.slots[j], u.before t → u.executed := by
  unfold State.ready at h
  split at h
  · cases h
  · next u held =>
    split at h
    · next queued =>
      split at h
      · next first =>
        cases h
        exact ⟨held, queued, (s.earlierAll_iff _ _).mp first⟩
      · cases h
    all_goals cases h

theorem execRecordUnreadable_idle (h : ∀ t, s.slots[k] = some t → t.phase = .queued none →
    ∃ j : SlotId, ∃ u ∈ s.slots[j], u.before t ∧ u.executed = false) : execRecordUnreadable k s = .next s := by
  unfold execRecordUnreadable
  split
  · next t ready =>
    obtain ⟨held, queued, turn⟩ := State.unreadable_of_ready ready
    obtain ⟨j, u, hu, before, waits⟩ := h t held queued
    exact nomatch waits.symm.trans (turn j u hu before)
  · rfl

end idle

/-! ## Ends of transfers -/

section late
variable {s : State} {e : Nat}

/-- The done end of a record read names the read's slot; no read of the slot can end, so nothing does (R176). -/
theorem execRecordReadDone_late {k : SlotId} (h : ∀ n i, s.endDone (.recordRead k n i) e = none) (r : Block64) :
    execRecordReadDone k r s e = .next s := by
  unfold execRecordReadDone
  split
  · rfl
  · split
    · rw [h]
    all_goals rfl

theorem execRecordReadFault_late {k : SlotId} (h : ∀ n i, s.endFailed (.recordRead k n i) e = none) :
    execRecordReadFault k s e = .next s := by
  unfold execRecordReadFault
  split
  · rfl
  · split
    · rw [h]
    all_goals rfl

theorem execGridReadDone_late {k : SlotId} (h : s.endDone (.gridRead k) e = none) (data : List Byte) :
    execGridReadDone k data s e = .next s := by
  unfold execGridReadDone
  split
  · rfl
  · split
    · rw [h]
    all_goals rfl

theorem execGridReadFault_late {k : SlotId} (h : s.endFailed (.gridRead k) e = none) :
    execGridReadFault k s e = .next s := by
  unfold execGridReadFault
  split
  · rfl
  · split
    · rw [h]
    all_goals rfl

theorem execSetupReadDone_late (h : s.endDone .setupRead e = none) (b : Block64) : execSetupReadDone b s e = .next s := by
  unfold execSetupReadDone
  split
  · next ended => exact nomatch h.symm.trans ended
  · rfl

theorem execWritebackZeroingDone_late (h : s.endDone .zeroing e = none) : execWritebackZeroingDone s e = .next s := by
  unfold execWritebackZeroingDone
  split
  · next ended _ => exact nomatch h.symm.trans ended
  · rfl

theorem execResultWriteDone_late {n : ResultRingId} {i : RingIndex}
    (h : ∀ x, oldestResult s n i e = some x → s.endDone x.kind e = none) : execResultWriteDone n i s e = .next s := by
  unfold execResultWriteDone
  split
  · rfl
  · next x hx => rw [h x hx]

theorem execResultWriteFault_late {n : ResultRingId} {i : RingIndex} (h : oldestResult s n i e = none) :
    execResultWriteFault n i s e = .next s := by
  have found : s.resultInFlight n i e = none := h
  simp only [execResultWriteFault, found]

end late

/-! ## Resets -/

/-- A hard reset begins a new epoch (R171; log entry 20). -/
theorem State.hardReset_epoch (s : State) (why : ResetCause) : (s.hardReset why).epoch = s.epoch + 1 := by
  obtain ⟨m, d, e, -⟩ := s.hardReset_spec why
  rw [e]

/-- Settles O17: an execution acts through the task whose turn it is, and an end through the transfer it names. -/
theorem outOfTurnChangesNothing : Obligations.OutOfTurnChangesNothing := by
  unfold Obligations.OutOfTurnChangesNothing
  refine ⟨fun s k c hc idle => ?_, fun s k known => execBadKind_idle known, fun s k waits => execRecordUnreadable_idle waits,
    fun c s ends done failed => ?_, fun s c hc => ?_⟩
  · obtain ⟨act, e⟩ := exec_of_executions s k c hc
    rw [e, State.executing_of_not idle]
  · cases c with
    | setupReadDone b e => exact execSetupReadDone_late (State.endDone_eq_none done) b
    | writebackZeroingDone e => exact execWritebackZeroingDone_late (State.endDone_eq_none done)
    | recordReadDone k r e =>
      refine execRecordReadDone_late (fun n i => State.endDone_eq_none fun x hx named => done x hx ?_) r
      obtain ⟨kind, epoch⟩ := Bool.and_eq_true_iff.mp named
      simp [endsDone, eq_of_beq kind, epoch]
    | gridReadDone k data e => exact execGridReadDone_late (State.endDone_eq_none done) data
    | snapshotWriteDone k e =>
      show execSnapshotWriteDone k s e = _
      rw [execSnapshotWriteDone, State.endDone_eq_none done]
    | resultWriteDone n i e =>
      refine execResultWriteDone_late fun x hx => State.endDone_eq_none fun y hy named => done y hy ?_
      obtain ⟨kind, epoch⟩ := Bool.and_eq_true_iff.mp named
      obtain ⟨index, -⟩ := resultIndex_of_oldestResult hx
      simp [endsDone, resultIndex_congr (eq_of_beq kind), index, eq_of_beq epoch]
    | writebackDone place e =>
      show execWritebackDone place s e = _
      rw [execWritebackDone, State.endDone_eq_none done]
    | setupReadFault e =>
      show execSetupReadFault s e = _
      rw [execSetupReadFault, State.endFailed_eq_none failed]
    | writebackZeroingFault e =>
      show execWritebackZeroingFault s e = _
      rw [execWritebackZeroingFault, State.endFailed_eq_none failed]
    | recordReadFault k e =>
      refine execRecordReadFault_late fun n i => State.endFailed_eq_none fun x hx => Bool.eq_false_iff.mpr fun named => ?_
      obtain ⟨kind, epoch⟩ := Bool.and_eq_true_iff.mp named
      have late := failed x hx
      simp [endsFailed, eq_of_beq kind, epoch] at late
    | gridReadFault k e => exact execGridReadFault_late (State.endFailed_eq_none failed)
    | snapshotWriteFault k e =>
      show execSnapshotWriteFault k s e = _
      rw [execSnapshotWriteFault, State.endFailed_eq_none failed]
    | resultWriteFault n i e =>
      exact execResultWriteFault_late (List.find?_eq_none.mpr fun x hx => by simpa [endsFailed] using failed x hx)
    | writebackFault place e =>
      show execWritebackFault place s e = _
      rw [execWritebackFault, State.endFailed_eq_none failed]
    | _ => cases ends
  · rcases List.mem_pair.mp hc with rfl | rfl
    · exact ⟨_, rfl, s.hardReset_epoch .powerOn⟩
    · exact ⟨_, rfl, s.hardReset_epoch .pin⟩

end Sys2Proof.Machine
end

section
/-! TAKE: the arbiter's choice in two tiers and the seven effects of a take (R122 to R125, R144). -/
namespace Sys2Proof.Machine

section take
variable {s : State} {n p : WorkRingId} {run : Nat}

theorem not_eligible (h : ¬CanTake s n) : ¬s.eligible n = true := fun e => h ((canTake_iff s n).mpr e)

/-- The search finds the first ring above the pointer that can be taken from (R124). -/
theorem State.searchRing_of_first {place : Nat} (low : 1 ≤ place) (high : place ≤ 7)
    (can : CanTake s (ringAbove s.pointer place))
    (first : ∀ j, 1 ≤ j → j < place → ¬CanTake s (ringAbove s.pointer j)) :
    s.searchRing = some (ringAbove s.pointer place) := by
  have found : (List.range 7).find? (s.eligible ∘ fun j => ringAbove s.pointer (j + 1)) = some (place - 1) := by
    refine List.find?_range_eq_some.mpr ⟨?_, List.mem_range.mpr (by omega), fun j hj => ?_⟩
    · rw [Function.comp_apply, Nat.sub_add_cancel low]
      exact (canTake_iff s _).mp can
    · simpa using not_eligible (first (j + 1) (by omega) (by omega))
  rw [State.searchRing, List.find?_map, found, Option.map_some, Nat.sub_add_cancel low]

/-- The arbiter chooses the ring it serves (R123, R124). -/
theorem State.choose_of_serves (nonzero : s.pointer ≠ 0) (h : Serves s n p run) : s.choose = some ⟨n, p, run⟩ := by
  unfold State.choose
  cases h with
  | control can ring kept keptRun =>
    subst ring kept keptRun
    exact if_pos ((canTake_iff s 0).mp can)
  | again no can left ring kept raised =>
    subst ring kept raised
    rw [if_neg (not_eligible no), if_pos ⟨nonzero, (canTake_iff s _).mp can, s.runLeft_iff.mpr left⟩]
  | search no used place low high ring can first moved afresh =>
    have above : n = ringAbove s.pointer place := Fin.ext ring
    subst moved afresh above
    have unused : ¬(s.pointer ≠ 0 ∧ s.eligible s.pointer = true ∧ s.runLeft = true) := fun ⟨_, can, left⟩ =>
      used ⟨(canTake_iff s _).mpr can, s.runLeft_iff.mp left⟩
    rw [if_neg (not_eligible no), if_neg unused,
      State.searchRing_of_first low high can fun j low' before => first j _ low' before rfl]
    rfl

theorem State.choose_none (h : ∀ n, ¬CanTake s n) : s.choose = none := by
  have found : s.searchRing = none := List.find?_eq_none.mpr fun n _ => not_eligible (h n)
  rw [State.choose, if_neg (not_eligible (h 0)), if_neg fun ⟨_, can, _⟩ => not_eligible (h _) can, found]
  rfl

theorem State.lowestFreeSlot_eq_some {k : SlotId} (free : s.slots[k] = none) (low : ∀ j < k, s.slots[j] ≠ none) :
    s.lowestFreeSlot = some k := by
  refine List.find?_eq_some_iff_getElem.mpr ⟨by simp [free], k.val, by simp, by simp, fun j hj => ?_⟩
  have held := low ⟨j, hj.trans k.isLt⟩ hj
  simpa [Option.isSome_iff_ne_none] using held

theorem execTake_of {c : Choice} {k : SlotId} {w : WorkRing} {q : ResultRing} (chosen : s.choose = some c)
    (slot : s.lowestFreeSlot = some k) (present : s.workRings[c.ring] = some w)
    (bound : s.resultRings[w.resultRing] = some q) : execTake s = .next (s.takeInto c k w q) := by
  simp only [execTake, chosen, slot, present, bound]

end take

/-- Settles O18: the arbiter's choice is the ring it serves, and the lowest FREE slot takes its record. -/
theorem takeClaimsARecord : Obligations.TakeClaimsARecord := by
  unfold Obligations.TakeClaimsARecord
  refine ⟨fun s n p run w q k nonzero serves eligible free low => ?_, fun s none => ?_⟩
  · exact execTake_of (State.choose_of_serves nonzero serves) (State.lowestFreeSlot_eq_some free low) eligible.present
      eligible.bound
  · show execTake s = _
    rw [execTake, State.choose_none none]

end Sys2Proof.Machine
end

section
/-! The bytes of a COMPLETION (R192), and the beginning of a result write (R131, R144, R145). -/
namespace Sys2Proof.Machine

/-! ## The bytes of a COMPLETION -/

/-- The fields of a completion body in a row, from 0x08. -/
def bodyFields : Body → List RowField
  | .blank => []
  | .home outcome veto mean comp clip none =>
    [ (1, outcome.code), (1, 0), (1, bit veto), (1, 0), (2, mean.getD 0xFFFF), (2, comp.getD 0xFFFF),
      (2, clip.getD 0xFFFF) ]
  | .home outcome veto mean comp clip (some rep) =>
    [ (1, outcome.code), (1, rep.loop.code), (1, bit veto + 2 * bit rep.newest.effective.isNone), (1, 0),
      (2, mean.getD 0xFFFF), (2, comp.getD 0xFFFF), (2, clip.getD 0xFFFF), (2, rep.newest.i), (2, rep.newest.g),
      (2, rep.newest.l), (4, rep.newest.frameValue) ]
  | .openStation setId loop relation station i g l =>
    [(1, setId), (1, loop.code), (1, relation), (1, station), (6, 0), (2, i), (2, g), (2, l)]
  | .closeStation freed measures decisions skipped =>
    [(1, freed), (3, 0), (4, measures.toNat), (4, decisions.toNat), (4, skipped.toNat)]
  | .readStation state loop => [(1, state.code), (1, loop.code)]
  | .stage setId freeBlocks freeIds relation itemCount blocksHeld prior position frame =>
    [ (1, setId), (1, freeBlocks), (1, freeIds), (1, relation), (1, itemCount), (1, blocksHeld), (1, prior.code),
      (1, position), (4, frame.toNat) ]
  | .createWorkRing ring resultRing size => [(1, ring), (1, resultRing), (2, 0), (2, size)]
  | .deleteWorkRing ring setsFreed abandoned => [(1, ring), (1, setsFreed), (2, 0), (2, abandoned)]
  | .createResultRing ring size threshold => [(1, ring), (3, 0), (2, size), (2, threshold)]
  | .deleteResultRing ring lost => [(1, ring), (3, 0), (2, lost)]
  | .queryDevice freeBlocks freeIds freeSlots =>
    [(1, 32), (1, 8), (1, 4), (1, 8), (1, 24), (1, freeBlocks), (1, freeIds), (1, freeSlots)]
  | .unreadable index => [(4, 0), (2, index.toNat)]

/-- The fields of a COMPLETION's header in a row, to 0x07. -/
def headerFields (c : Completion) : List RowField :=
  [(1, 0x81), (1, c.status.code), (2, c.tag.toNat), (1, c.ring.val), (1, c.station.toNat), (2, 0)]

theorem rowSize_bodyFields_le (b : Body) : rowSize (bodyFields b) ≤ 24 := by
  cases b with
  | home outcome veto mean comp clip report => cases report <;> simp [bodyFields, rowSize]
  | _ => simp [bodyFields, rowSize]

theorem rowSize_headerFields (c : Completion) : rowSize (headerFields c) = 8 := by
  simp only [headerFields, rowSize]

theorem body_bytes_eq_rowBytes (b : Body) : b.bytes = rowBytes (bodyFields b) := by
  cases b with
  | home outcome veto mean comp clip report =>
    cases report <;> simp [Body.bytes, bodyFields, rowBytes, byte, metering]
  | _ => simp [Body.bytes, bodyFields, rowBytes, byte]

/-- The fields of a body fill its table; the bytes between the rows are 0. -/
theorem fills_body (b : Body) : Fills 8 (bodyFields b) (bodyContents b) := by
  cases b with
  | home outcome veto mean comp clip report =>
    cases report with
    | none => constructor <;> simp [bodyContents, bodyFields, placed, bit]
    | some rep =>
      have marks : bit veto + 2 * bit rep.newest.effective.isNone =
          (if veto then 1 else 0) + if rep.newest.effective = none then 2 else 0 := by
        cases rep.newest.effective <;> rfl
      constructor <;> simp [bodyContents, bodyFields, placed, marks, Entry.frameValue]
  | _ => constructor <;> simp [bodyContents, bodyFields, placed]

theorem fills_header (c : Completion) : Fills 0 (headerFields c)
    [ (0x00, 1, 0x81), (0x01, 1, c.status.code), (0x02, 2, c.tag.toNat), (0x04, 1, c.ring.val),
      (0x05, 1, c.station.toNat) ] := by
  constructor <;> simp [headerFields, placed]

/-- A COMPLETION's fields in a row, to its 32 bytes. -/
def completionFields (c : Completion) : List RowField :=
  headerFields c ++ (bodyFields c.body ++ [(24 - rowSize (bodyFields c.body), 0)])

theorem rowSize_completionFields (c : Completion) : rowSize (completionFields c) = 32 := by
  have fits := rowSize_bodyFields_le c.body
  rw [completionFields, rowSize_append, rowSize_append, rowSize_headerFields, rowSize, rowSize]
  omega

theorem completion_bytes_eq_rowBytes (c : Completion) : c.bytes = rowBytes (completionFields c) := by
  have fits : rowSize (headerFields c ++ bodyFields c.body) ≤ 32 := by
    rw [rowSize_append, rowSize_headerFields]
    have := rowSize_bodyFields_le c.body
    omega
  have filled := padTo_rowBytes fits
  have left : 32 - rowSize (headerFields c ++ bodyFields c.body) = 24 - rowSize (bodyFields c.body) := by
    rw [rowSize_append, rowSize_headerFields]
    omega
  rw [left, List.append_assoc] at filled
  rw [completionFields, ← filled, Completion.bytes, rowBytes_append, body_bytes_eq_rowBytes]
  simp only [headerFields, rowBytes, List.flatMap_cons, List.flatMap_nil, List.append_nil, List.append_assoc, byte]

theorem fills_completion (c : Completion) : Fills 0 (completionFields c) (completionContents c) := by
  have body : Fills 8 (bodyFields c.body ++ [(24 - rowSize (bodyFields c.body), 0)]) (bodyContents c.body) := by
    have padded := (fills_body c.body).append rfl (Fills.zeros _ (24 - rowSize (bodyFields c.body)))
    rwa [List.append_nil] at padded
  exact (fills_header c).append (by rw [rowSize_headerFields]) body

theorem laid_completion (c : Completion) : Laid 32 (completionContents c) c.bytes := by
  rw [completion_bytes_eq_rowBytes]
  exact laid_of_fills (fills_completion c) (rowSize_completionFields c)

/-! ## The beginning of a result write -/

section begins
variable {s : State} {k : SlotId} {t : Task} {record : Option Block64} {c : Completion} {image : Option (List Byte)}
  {w : WorkRing} {q : ResultRing}

theorem Transfer.ofSlotWrite_iff (k : SlotId) (x : Transfer) :
    x.ofSlotWrite k = true ↔ x.kind = .snapshot k ∨ ∃ n i, x.kind = .completion k n i := by
  unfold Transfer.ofSlotWrite
  split <;> simp_all

/-- A slot may write when no task taken before it stays in the table and no write of its own is in flight (R131). -/
theorem State.mayWrite_iff : s.mayWrite k t = true ↔
    (∀ j : SlotId, ∀ u ∈ s.slots[j], u.before t = false) ∧
      ∀ x ∈ s.transfers, x.kind ≠ .snapshot k ∧ ∀ n i, x.kind ≠ .completion k n i := by
  rw [State.mayWrite, Bool.and_eq_true, State.earlierAll_iff, Bool.not_eq_true', List.any_eq_false]
  refine and_congr (by simp) (forall₂_congr fun x _ => ?_)
  rw [Transfer.ofSlotWrite_iff, not_or]
  simp

theorem execResultWrite_of (held : s.slots[k] = some t) (writing : t.phase = .writing record c image)
    (present : s.workRings[t.ring] = some w) (bound : s.resultRings[w.resultRing] = some q) (reserved : 1 ≤ q.reserved) :
    execResultWrite k s = .next (if s.mayWrite k t then s.placeCompletion k w.resultRing q c else s) := by
  simp only [execResultWrite, held, writing, present, bound, reserved, decide_true, Bool.and_true]

end begins

/-- Settles O21: the bytes by the fields in a row, and the event by whether the slot may write. -/
theorem resultWriteBegins : Obligations.ResultWriteBegins := by
  unfold Obligations.ResultWriteBegins
  refine ⟨laid_completion, rfl, rfl, rfl, rfl, rfl, fun s k t record c image w q held writing present bound reserved => ?_⟩
  have write := execResultWrite_of held writing present bound reserved
  refine ⟨fun may => ?_, fun waits => ?_⟩
  · rw [if_pos (State.mayWrite_iff.mpr may)] at write
    exact write
  · rw [if_neg fun may => waits (State.mayWrite_iff.mp may)] at write
    exact write

end Sys2Proof.Machine
end

section
/-! The end of a completion's write: beside other tasks (R131, R146, R157), and as the last task of the table, where every
ring is announced and a quiesce completes (R158, R165). -/
namespace Sys2Proof.Machine

/-! ## The slot becomes FREE -/

section written
variable {s : State} {k : SlotId} {t : Task} {n : ResultRingId} {i : RingIndex} {q : ResultRing} {w : WorkRing}
  {x : Transfer} {e : Nat} {data : List Byte}

/-- With no task in DRAIN_WAIT, the written record frees its slot and lowers its ring's count (R131, R132). -/
theorem recordWritten_freeSlot (held : s.slots[k] = some t) (present : s.workRings[t.ring] = some w)
    (calm : ∀ j : SlotId, ∀ u ∈ s.slots[j], u.draining = false) :
    (recordWritten s n q x data).freeSlot k = completionWritten s k t w n q x data :=
  State.freeSlot_spec (s := recordWritten s n q x data) held present calm

theorem completionWritten_slot (j : SlotId) :
    (completionWritten s k t w n q x data).slots[j] = if k = j then none else s.slots[j] := get_set ..

theorem execResultWriteDone_calm (held : s.slots[k] = some t) (present : s.workRings[t.ring] = some w)
    (bound : s.resultRings[n] = some q) (hx : oldestResult s n i e = some x) (kind : x.kind = .completion k n i)
    (write : x.payload = .write data) (done : x.failing = false)
    (calm : ∀ j : SlotId, ∀ u ∈ s.slots[j], u.draining = false) :
    execResultWriteDone n i s e = .next (completionWritten s k t w n q x data).afterLastTask.settleDrains := by
  rw [execResultWriteDone_completion hx kind done write bound, recordWritten_freeSlot held present calm]

/-- No task of the table is in DRAIN_WAIT once the slot is FREE either. -/
theorem completionWritten_calm (calm : ∀ j : SlotId, ∀ u ∈ s.slots[j], u.draining = false) (j : SlotId) :
    ∀ u ∈ (completionWritten s k t w n q x data).slots[j], u.draining = false := by
  rw [completionWritten_slot]
  split
  · exact fun u hu => nomatch hu
  · exact calm j

/-- A write that ends done sets causes at most, and leaves the controller state (R157, R172, R173). -/
theorem Reports.recordWritten (bound : s.resultRings[n] = some q) (hx : oldestResult s n i e = some x)
    (write : x.payload = .write data) (done : x.failing = false) : Reports s (recordWritten s n q x data) := by
  have ended := State.endDone_write (oldest_of_oldestResult hx) done write
  rw [← recordProduced_of_endDone hx done write bound ended]
  exact (Reports.endDone ended).trans (Reports.recordProduced _ n)

end written

/-- Settles O22: the record is written and the slot freed; other tasks stay, so nothing is announced and no drain ends. -/
theorem completionWrittenBeside : Obligations.CompletionWritten := by
  unfold Obligations.CompletionWritten
  intro s k t ring index q w x e data held present bound hx kind write done others calm rest produced signals
  obtain ⟨-, rfl⟩ := resultIndex_of_oldestResult hx
  obtain ⟨j, other, stays⟩ := others
  obtain ⟨u, hu⟩ := Option.ne_none_iff_exists'.mp stays
  have left : (completionWritten s k t w ring q x data).slots[j] = some u := by
    rw [completionWritten_slot, if_neg other.symm, hu]
  refine (execResultWriteDone_calm held present bound hx kind write done calm).trans ?_
  rw [State.afterLastTask_of_held left, State.settleDrains_of_none (completionWritten_calm calm)]
  rfl

/-! ## The announcement of every ring (R158) -/

/-- A ring with a record that no signal has counted (R158). -/
def uncounted : Option ResultRing → Bool
  | none => false
  | some q => decide (0 < q.unsignalled)

/-- A ring whose records are all counted. -/
def ResultRing.counted (q : ResultRing) : ResultRing := { q with unsignalled := 0 }

/-- The RESULTn bits of the rings with uncounted records, of those listed. -/
def uncountedBits (rings : Vector (Option ResultRing) 4) : List ResultRingId → BitVec 8
  | [] => 0#8
  | n :: rest => (if uncounted rings[n] then resultBit n else 0#8) ||| uncountedBits rings rest

theorem resultBit_getLsbD (n : ResultRingId) (i : Nat) : (resultBit n).getLsbD i = (i == n.val) := by
  by_cases h : i < 8
  · revert n i
    decide
  · have other : ¬i = n.val := by omega
    rw [BitVec.getLsbD_of_ge _ i (by omega)]
    exact (beq_eq_false_iff_ne.mpr other).symm

theorem uncountedBits_getLsbD (rings : Vector (Option ResultRing) 4) (l : List ResultRingId) (i : Nat) :
    (uncountedBits rings l).getLsbD i = l.any fun n => uncounted rings[n] && i == n.val := by
  induction l with
  | nil => exact BitVec.getLsbD_zero
  | cons n rest ih =>
    rw [uncountedBits, BitVec.getLsbD_or, ih, List.any_cons]
    cases uncounted rings[n] with
    | true => rw [if_pos rfl, resultBit_getLsbD, Bool.true_and]
    | false => rw [if_neg Bool.false_ne_true, BitVec.getLsbD_zero, Bool.false_and]

theorem uncountedBits_congr {rings others : Vector (Option ResultRing) 4} {l : List ResultRingId}
    (h : ∀ n ∈ l, rings[n] = others[n]) : uncountedBits rings l = uncountedBits others l := by
  induction l with
  | nil => rfl
  | cons n rest ih =>
    rw [uncountedBits, uncountedBits, h n List.mem_cons_self, ih fun m hm => h m (List.mem_cons_of_mem _ hm)]

/-- A ring listed shows in its own bit. -/
theorem uncountedBits_all (rings : Vector (Option ResultRing) 4) (n : ResultRingId) :
    (uncountedBits rings (List.finRange 4)).getLsbD n.val = uncounted rings[n] := by
  rw [uncountedBits_getLsbD, Bool.eq_iff_iff, List.any_eq_true]
  simp only [Bool.and_eq_true, beq_iff_eq]
  constructor
  · rintro ⟨m, -, hm, e⟩
    rwa [Fin.ext e]
  · exact fun hn => ⟨n, List.mem_finRange n, hn, rfl⟩

/-- The other causes show in no ring's bit. -/
theorem uncountedBits_above (rings : Vector (Option ResultRing) 4) (l : List ResultRingId) {i : Nat} (h : 4 ≤ i) :
    (uncountedBits rings l).getLsbD i = false := by
  rw [uncountedBits_getLsbD, List.any_eq_false]
  intro n _
  have other : ¬i = n.val := by omega
  simp [other]

/-- The announcement of one ring: its count is 0, and its cause is set if a record was uncounted. -/
theorem State.announce_uncounted (s : State) (n : ResultRingId) : ∃ messages,
    (s.announce n fun q => decide (0 < q.unsignalled)) = { s with
      resultRings := s.resultRings.set n ((s.resultRings[n]).map ResultRing.counted)
      cause := s.cause ||| if uncounted s.resultRings[n] then resultBit n else 0#8
      messages := messages } := by
  have same {x : Option ResultRing} (h : s.resultRings[n] = x) : s.resultRings.set n x = s.resultRings :=
    bank_ext fun m => by
      rw [get_set]
      split
      · next e => rw [← h, e]
      · rfl
  cases h : s.resultRings[n] with
  | none =>
    rw [State.announce_absent h]
    refine ⟨s.messages, ?_⟩
    simp [same h, uncounted]
  | some q =>
    rw [State.announce_spec h]
    by_cases due : 0 < q.unsignalled
    · exact ⟨messagesAfter s (s.cause ||| resultBit n) s.mask, by simp [due, uncounted, ResultRing.counted]⟩
    · have counted : q.counted = q := by
        rw [ResultRing.counted, show 0 = q.unsignalled by omega]
      exact ⟨s.messages, by simp [due, uncounted, counted, same h]⟩

/-- The rings listed are announced one after another. -/
theorem State.foldl_announce (l : List ResultRingId) (distinct : l.Nodup) (s : State) : ∃ messages,
    (l.foldl (fun s n => s.announce n fun q => decide (0 < q.unsignalled)) s) = { s with
      resultRings := Vector.ofFn fun n =>
        if n ∈ l then (s.resultRings[n]).map ResultRing.counted else s.resultRings[n]
      cause := s.cause ||| uncountedBits s.resultRings l
      messages := messages } := by
  induction l generalizing s with
  | nil =>
    refine ⟨s.messages, ?_⟩
    simp [uncountedBits]
  | cons n rest ih =>
    obtain ⟨fresh, distinct⟩ := List.nodup_cons.mp distinct
    obtain ⟨messages, first⟩ := s.announce_uncounted n
    have beside (m : ResultRingId) (hm : m ∈ rest) :
        (s.resultRings.set n ((s.resultRings[n]).map ResultRing.counted))[m] = s.resultRings[m] := by
      have other : n ≠ m := fun e => fresh (e ▸ hm)
      rw [get_set, if_neg other]
    obtain ⟨messages', later⟩ := ih distinct (s.announce n fun q => decide (0 < q.unsignalled))
    refine ⟨messages', (List.foldl_cons ..).trans (later.trans ?_)⟩
    rw [first]
    dsimp only
    rw [uncountedBits_congr beside, BitVec.or_assoc]
    have rings : (Vector.ofFn fun m : ResultRingId =>
        if m ∈ rest then ((s.resultRings.set n ((s.resultRings[n]).map ResultRing.counted))[m]).map ResultRing.counted
        else (s.resultRings.set n ((s.resultRings[n]).map ResultRing.counted))[m]) =
        Vector.ofFn fun m : ResultRingId =>
          if m ∈ n :: rest then (s.resultRings[m]).map ResultRing.counted else s.resultRings[m] :=
      bank_ext fun m => by
        rw [get_ofFn, get_ofFn]
        by_cases hm : m ∈ rest
        · rw [if_pos hm, if_pos (List.mem_cons_of_mem _ hm), beside m hm]
        · by_cases e : m = n
          · subst e
            rw [if_neg hm, if_pos List.mem_cons_self, get_set, if_pos rfl]
          · rw [if_neg hm, if_neg (List.not_mem_cons_of_ne_of_not_mem e hm), get_set, if_neg (Ne.symm e)]
    rw [rings]
    rfl

/-- Every ring's count is 0, and its cause is set if a record was uncounted (R158). -/
theorem State.announceAll_spec (s : State) :
    s.announceAll = { s with
      resultRings := Vector.ofFn fun n => (s.resultRings[n]).map ResultRing.counted
      cause := s.cause ||| uncountedBits s.resultRings (List.finRange 4)
      messages := messagesAfter s (s.cause ||| uncountedBits s.resultRings (List.finRange 4)) s.mask } := by
  obtain ⟨messages, e⟩ := State.foldl_announce (List.finRange 4) (List.nodup_finRange 4) s
  have all : s.announceAll = _ := e
  have reports := (Reports.announceAll s).messages
  rw [all] at reports ⊢
  simp only [List.mem_finRange, if_true]
  rw [← show messages = _ from reports]

/-- The table has emptied: every ring is announced, and a quiesce completes (R158, R165). -/
theorem State.afterLastTask_of_empty {s : State} (empty : ∀ k : SlotId, s.slots[k] = none) :
    s.afterLastTask = if s.controller = .quiescing then s.announceAll.becomeQuiesced else s.announceAll := by
  unfold State.afterLastTask
  rw [if_pos (s.tableEmpty_iff.mpr empty)]
  dsimp only
  rw [(Reports.announceAll s).controller]

/-- The CAUSE left by the table emptying. -/
def emptiedCause (s : State) : BitVec 8 :=
  s.cause ||| uncountedBits s.resultRings (List.finRange 4) ||| if s.controller = .quiescing then 0x20#8 else 0#8

/-- The state once the table has emptied. -/
theorem State.afterLastTask_spec {s : State} (empty : ∀ k : SlotId, s.slots[k] = none) :
    s.afterLastTask = { s with
      controller := if s.controller = .quiescing then .quiesced else s.controller
      resultRings := Vector.ofFn fun n => (s.resultRings[n]).map ResultRing.counted
      cause := emptiedCause s
      messages := messagesAfter s (emptiedCause s) s.mask } := by
  rw [State.afterLastTask_of_empty empty]
  by_cases quiescing : s.controller = .quiescing
  · have cause : emptiedCause s = s.announceAll.cause ||| 0x20#8 := by
      rw [emptiedCause, if_pos quiescing, s.announceAll_spec]
    have twice := messagesAfter_trans (Reports.announceAll s).mask (Reports.announceAll s).link
      (Reports.announceAll s).messages (Reports.announceAll s).cause
      (show s.announceAll.cause ||| emptiedCause s = emptiedCause s by
        rw [cause, ← BitVec.or_assoc, BitVec.or_self])
    rw [if_pos quiescing, if_pos quiescing, State.becomeQuiesced_spec, ← cause, (Reports.announceAll s).mask, twice,
      s.announceAll_spec]
  · rw [if_neg quiescing, if_neg quiescing, emptiedCause, if_neg quiescing, BitVec.or_zero, s.announceAll_spec]

/-! ## The last completion -/

theorem emptiedCause_getLsbD (s : State) (i : Nat) : (emptiedCause s).getLsbD i =
    (s.cause.getLsbD i || (uncountedBits s.resultRings (List.finRange 4)).getLsbD i ||
      decide (s.controller = .quiescing) && i == 5) := by
  have quiesced : (0x20#8).getLsbD i = (i == 5) := by
    by_cases h : i < 8
    · revert i
      decide
    · rw [BitVec.getLsbD_of_ge _ i (by omega)]
      exact (beq_eq_false_iff_ne.mpr (by omega)).symm
  rw [emptiedCause, BitVec.getLsbD_or, BitVec.getLsbD_or]
  by_cases quiescing : s.controller = .quiescing
  · rw [if_pos quiescing, quiesced, decide_eq_true quiescing, Bool.true_and]
  · rw [if_neg quiescing, BitVec.getLsbD_zero, decide_eq_false quiescing, Bool.false_and]

section last
variable {s : State} {k : SlotId} {t : Task} {n : ResultRingId} {q : ResultRing} {w : WorkRing} {x : Transfer}
  {data : List Byte}

/-- The written ring signals at its threshold; below it, its record stays uncounted (R157). -/
theorem completionWritten_cause (i : Nat) : (completionWritten s k t w n q x data).cause.getLsbD i =
    (s.cause.getLsbD i || decide (q.threshold ≤ q.unsignalled + 1) && i == n.val) := by
  show (if decide (q.threshold ≤ q.unsignalled + 1) = true then s.cause ||| resultBit n else s.cause).getLsbD i = _
  cases decide (q.threshold ≤ q.unsignalled + 1) with
  | true => rw [if_pos rfl, BitVec.getLsbD_or, resultBit_getLsbD, Bool.true_and]
  | false => rw [if_neg Bool.false_ne_true, Bool.false_and, Bool.or_false]

theorem completionWritten_uncounted (m : ResultRingId) :
    uncounted (completionWritten s k t w n q x data).resultRings[m] =
      if n = m then !decide (q.threshold ≤ q.unsignalled + 1) else uncounted s.resultRings[m] := by
  rw [show (completionWritten s k t w n q x data).resultRings[m] = _ from get_set ..]
  split
  · by_cases signals : q.threshold ≤ q.unsignalled + 1 <;> simp [uncounted, signals]
  · rfl

/-- The rings' bits once the table has emptied: the ring written, and every other with an uncounted record (R158). -/
theorem emptiedCause_result (m : ResultRingId) :
    (emptiedCause (completionWritten s k t w n q x data)).getLsbD m.val =
      (s.cause.getLsbD m.val || m == n || uncounted s.resultRings[m]) := by
  have below : (m.val == 5) = false := beq_eq_false_iff_ne.mpr (by omega)
  rw [emptiedCause_getLsbD, uncountedBits_all, completionWritten_cause, completionWritten_uncounted, below,
    Bool.and_false, Bool.or_false]
  by_cases e : n = m
  · subst e
    cases decide (q.threshold ≤ q.unsignalled + 1) <;> simp
  · have other : (m.val == n.val) = false := beq_eq_false_iff_ne.mpr fun h => e (Fin.ext h.symm)
    have other' : (m == n) = false := beq_eq_false_iff_ne.mpr (Ne.symm e)
    rw [if_neg e, other, other', Bool.and_false]

/-- The causes above the rings' once the table has emptied: QUIESCED alone can be set (R165). -/
theorem emptiedCause_above {i : Nat} (h : 4 ≤ i) :
    (emptiedCause (completionWritten s k t w n q x data)).getLsbD i =
      (s.cause.getLsbD i || decide (s.controller = .quiescing) && i == 5) := by
  have other : (i == n.val) = false := beq_eq_false_iff_ne.mpr (by omega)
  rw [emptiedCause_getLsbD, completionWritten_cause, uncountedBits_above _ _ h, other, Bool.and_false, Bool.or_false,
    Bool.or_false]
  rfl

end last

/-- The last task leaves the table (R131, R132). -/
theorem State.freeSlot_alone {s : State} {k : SlotId} {t : Task} {w : WorkRing} (held : s.slots[k] = some t)
    (present : s.workRings[t.ring] = some w) (alone : ∀ j, j ≠ k → s.slots[j] = none) :
    s.freeSlot k = { s with
      slots := s.slots.set k none
      workRings := s.workRings.set t.ring (some { w with inFlight := w.inFlight - 1 }) } := by
  have forgotten : mapBank (Option.map (Task.forgetSlot k)) (s.slots.set k none) = s.slots.set k none :=
    mapBank_id fun j => by
      rw [get_set]
      split
      · rfl
      · next other => rw [alone j (Ne.symm other), Option.map_none]
  unfold State.freeSlot
  simp only [held, forgotten, present]
  rfl

/-- Settles O23: with the slot FREE the table is empty, so every ring is announced and a quiesce completes. -/
theorem lastCompletionWritten : Obligations.LastCompletionWritten := by
  unfold Obligations.LastCompletionWritten
  intro s k t ring index q w x e data held present bound hx kind write done alone rest produced
  obtain ⟨-, rfl⟩ := resultIndex_of_oldestResult hx
  have freed : (recordWritten s ring q x data).freeSlot k = completionWritten s k t w ring q x data :=
    State.freeSlot_alone (s := recordWritten s ring q x data) held present alone
  have empty (j : SlotId) : (completionWritten s k t w ring q x data).slots[j] = none := by
    rw [completionWritten_slot]
    split
    · rfl
    · next other => exact alone j (Ne.symm other)
  have reports : Reports s (completionWritten s k t w ring q x data) :=
    freed ▸ (Reports.recordWritten bound hx write done).trans (Reports.freeSlot _ k)
  have sent := messagesAfter_trans (cause := emptiedCause (completionWritten s k t w ring q x data)) reports.mask
    reports.link reports.messages reports.cause (by
      rw [emptiedCause, BitVec.or_assoc, ← BitVec.or_assoc, BitVec.or_self])
  have slots : s.slots.set k none = Vector.replicate 8 none :=
    bank_ext fun j => (show (s.slots.set k none)[j] = none from empty j).trans (none_bank j).symm
  have above {i : Nat} (h : 4 ≤ i) (other : (i == 5) = false) :
      (emptiedCause (completionWritten s k t w ring q x data)).getLsbD i = s.cause.getLsbD i := by
    rw [emptiedCause_above h, other, Bool.and_false, Bool.or_false]
  refine ⟨emptiedCause (completionWritten s k t w ring q x data), ?_, emptiedCause_result, above (by decide) rfl, ?_,
    above (by decide) rfl, above (by decide) rfl⟩
  · refine (execResultWriteDone_completion hx kind done write bound).trans ?_
    rw [freed, State.afterLastTask_spec empty, State.settleDrains_of_none fun j u hu => nomatch empty j ▸ hu]
    have rings : (Vector.ofFn fun n : ResultRingId =>
        ((completionWritten s k t w ring q x data).resultRings[n]).map ResultRing.counted) =
        Vector.ofFn fun n : ResultRingId =>
          if n = ring then some { q with produced := produced, unsignalled := 0 }
          else (s.resultRings[n]).map fun y => { y with unsignalled := 0 } := bank_ext fun n => by
      rw [get_ofFn, get_ofFn, show (completionWritten s k t w ring q x data).resultRings[n] = _ from get_set ..]
      simp only [eq_comm (a := n)]
      split <;> rfl
    rw [rings, ← slots, ← sent]
    rfl
  · rw [emptiedCause_above (by decide)]
    exact congrArg _ (Bool.and_true _)

end Sys2Proof.Machine
end
